-- ==== Sys2Proof/Word.lean ====
section
/-! DEFINITION. The word types of the block and the names of the registers in its host window.

Every register is one byte (10_state.md R20), a command word is 16 bits (30_encoding.md R80), and a status
code is the upper five bits of STATUS (10_state.md R22). -/

namespace Sys2Proof

/-- A register value, a bus byte, an operand: 8 bits, unsigned (00_scope.md section 4). -/
abbrev Byte := BitVec 8

/-- A command word `OP:ARG`; bit 15 is the most significant bit of OP (30_encoding.md R80). -/
abbrev CommandWord := BitVec 16

/-- `STATUS[7:3]`, the operation-status code; its masked status is the code followed by three zero bits
(10_state.md R22). -/
abbrev StatusCode := BitVec 5

/-- The byte registers of the host window, in the order of their offsets 0x0 to 0x7 (10_state.md R20). -/
inductive Reg where
  | ctrl
  | status
  | data
  | bitrate
  | arg
  | cmd
  | result
  | engstat
deriving DecidableEq, Repr

/-- The speed selection SPEED_SEL: `low` is the bit value 0, `high` the bit value 1 (10_state.md R29). -/
inductive Speed where
  | low
  | high
deriving DecidableEq, Repr

end Sys2Proof
end

