-- ==== Sys2Proof/Syntax.lean ====
section
/-! DEFINITION. The commands of the block, one constructor for each row of the opcode map (30_encoding.md R82). -/

namespace Sys2Proof

/-- A command. The operands have exactly the widths of the formats of 30_encoding.md R81, so every term is a
command the encoding admits. -/
inductive Instr where
  /-- BEGIN, `0x01:0x00` (40_config.md R101). -/
  | beginCmd
  /-- END, `0x02:0x00` (40_config.md R102). -/
  | endCmd
  /-- SET_LOW_SPEED, `0x03:0x00` (40_config.md R103). -/
  | setLowSpeed
  /-- SET_HIGH_SPEED, `0x04:0x00` (40_config.md R104). -/
  | setHighSpeed
  /-- START, `0x10:0x00` (41_bus_conditions.md R120). -/
  | start
  /-- STOP, `0x11:0x00` (41_bus_conditions.md R122). -/
  | stop
  /-- SEND_ADDRESS, `0x12:aaaaaaad`: `a` the 7-bit slave address, `d` the direction, 0 write and 1 read
  (42_data_phase.md R140, 30_encoding.md R83). -/
  | sendAddress (a : BitVec 7) (d : BitVec 1)
  /-- SEND_BYTE, `0x13:dddddddd` (42_data_phase.md R141, 30_encoding.md R85). -/
  | sendByte (d : Byte)
  /-- RECEIVE_BYTE, `0x14:0000000k`: `k` = 1 acknowledges the received byte (42_data_phase.md R142,
  30_encoding.md R84). -/
  | receiveByte (k : BitVec 1)
deriving DecidableEq, Repr

end Sys2Proof
end

