-- ==== Sys2Proof/WellFormed.lean ====
section
/-! DEFINITION. What is well-formed: a command word (30_encoding.md R86) and a line of assembly (R89).

A term of `Instr` is well-formed by its type: its operands have exactly the widths of the formats of
30_encoding.md R81. The two checks here are on what comes in from outside: a 16-bit word, and a line of
assembly with unbounded numbers. -/

namespace Sys2Proof

/-- The formats of a command word (30_encoding.md R81). -/
inductive Format where
  /-- No operand: ARG must be zero. -/
  | none
  /-- `aaaaaaad`: any ARG. -/
  | address
  /-- `dddddddd`: any ARG. -/
  | data
  /-- `0000000k`: ARG[7:1] must be zero. -/
  | ack
deriving DecidableEq, Repr

/-- The format of a listed opcode; `none` for a reserved one (30_encoding.md R82, R86). -/
def formatOf (op : Byte) : Option Format :=
  if op = 0x01 ∨ op = 0x02 ∨ op = 0x03 ∨ op = 0x04 ∨ op = 0x10 ∨ op = 0x11 then some .none
  else if op = 0x12 then some .address
  else if op = 0x13 then some .data
  else if op = 0x14 then some .ack
  else none

/-- The bits of ARG that the format reserves are zero (30_encoding.md R81). -/
def Format.argOk : Format → Byte → Bool
  | .none, arg => decide (arg = 0)
  | .address, _ => true
  | .data, _ => true
  | .ack, arg => decide (arg.extractLsb' 1 7 = 0)

/-- A command word that 30_encoding.md R86 does not call illegal: its OP is listed and its reserved ARG bits
are zero. Written from R86 and R81, apart from the decoder's mask and match. -/
def wordLegal (w : CommandWord) : Bool :=
  match formatOf (w.extractLsb' 8 8) with
  | some f => f.argOk (w.extractLsb' 0 8)
  | none => false

/-- A line of assembly (30_encoding.md R89, R90; 43_composite.md R160). Operands are numbers as written. The
direction is the letter `W` or `R`. -/
inductive AsmLine where
  /-- `BEGIN` -/
  | beginLine
  /-- `END` -/
  | endLine
  /-- `SET_LOW_SPEED` -/
  | setLowSpeed
  /-- `SET_HIGH_SPEED` -/
  | setHighSpeed
  /-- `START` -/
  | start
  /-- `STOP` -/
  | stop
  /-- `SEND_ADDRESS a, W` or `SEND_ADDRESS a, R` -/
  | sendAddress (a : Nat) (direction : Char)
  /-- `SEND_ADDRESS #b`, the whole SLA byte -/
  | sendSla (b : Nat)
  /-- `SEND_BYTE d` -/
  | sendByte (d : Nat)
  /-- `RECEIVE_BYTE ACK` (true) or `RECEIVE_BYTE NACK` (false) -/
  | receiveByte (ack : Bool)
  /-- `READ <register>`, a host read in a program -/
  | read (r : Reg)
  /-- `WRITE a, d`, a pseudo-command -/
  | write (a d : Nat)
  /-- `WRITE_REG a, reg, [b0, ...]`, a pseudo-command -/
  | writeReg (a reg : Nat) (payload : List Nat)
deriving DecidableEq, Repr

/-- "An assembler refuses an address outside 0 to 127, a direction other than `W` or `R`, and a byte outside 0
to 255" (30_encoding.md R89). -/
def AsmLine.wf : AsmLine → Bool
  | .beginLine | .endLine | .setLowSpeed | .setHighSpeed | .start | .stop => true
  | .sendAddress a dir => decide (a ≤ 127) && (decide (dir = 'W') || decide (dir = 'R'))
  | .sendSla b => decide (b ≤ 255)
  | .sendByte d => decide (d ≤ 255)
  | .receiveByte _ => true
  | .read _ => true
  | .write a d => decide (a ≤ 127) && decide (d ≤ 255)
  | .writeReg a reg payload =>
    decide (a ≤ 127) && decide (reg ≤ 255) && payload.all fun b => decide (b ≤ 255)

end Sys2Proof
end

