-- ==== Sys2Proof/Decode.lean ====
section
/-! DEFINITION. Decoding a command word, total on all 65536 words (30_encoding.md R88), and encoding a command,
both from the opcode map of 30_encoding.md R82. -/

namespace Sys2Proof

/-- Why a word is illegal (30_encoding.md R86). -/
inductive IllegalWord where
  /-- (a) OP is not in the table. -/
  | reservedOpcode
  /-- (b) OP is in the table but reserved ARG bits are not zero. -/
  | reservedArgBits
deriving DecidableEq, Repr

/-- What the decoder answers: a command, or ILLEGAL with its reason (30_encoding.md R88). -/
inductive Decoded where
  | command (i : Instr)
  | illegal (why : IllegalWord)
deriving DecidableEq, Repr

/-- The rows of the opcode map, by mnemonic (30_encoding.md R82). -/
inductive OpRow where
  | beginRow
  | endRow
  | setLowSpeedRow
  | setHighSpeedRow
  | startRow
  | stopRow
  | sendAddressRow
  | sendByteRow
  | receiveByteRow
deriving DecidableEq, Repr

/-- The rows in the table's order. -/
def OpRow.all : List OpRow :=
  [.beginRow, .endRow, .setLowSpeedRow, .setHighSpeedRow, .startRow, .stopRow, .sendAddressRow, .sendByteRow,
    .receiveByteRow]

/-- The row's `match` column (30_encoding.md R82). -/
def OpRow.pattern : OpRow → CommandWord
  | .beginRow => 0x0100
  | .endRow => 0x0200
  | .setLowSpeedRow => 0x0300
  | .setHighSpeedRow => 0x0400
  | .startRow => 0x1000
  | .stopRow => 0x1100
  | .sendAddressRow => 0x1200
  | .sendByteRow => 0x1300
  | .receiveByteRow => 0x1400

/-- The row's `mask` column (30_encoding.md R82). -/
def OpRow.mask : OpRow → CommandWord
  | .beginRow => 0xFFFF
  | .endRow => 0xFFFF
  | .setLowSpeedRow => 0xFFFF
  | .setHighSpeedRow => 0xFFFF
  | .startRow => 0xFFFF
  | .stopRow => 0xFFFF
  | .sendAddressRow => 0xFF00
  | .sendByteRow => 0xFF00
  | .receiveByteRow => 0xFFFE

/-- `(W & mask) == match` (30_encoding.md R88). -/
def OpRow.matchesWord (r : OpRow) (w : CommandWord) : Bool :=
  decide (w &&& r.mask = r.pattern)

/-- The command of a row with the operand fields of the word: `a` = W[7:1], `d` = W[0]; the data byte W[7:0];
`k` = W[0] (30_encoding.md R81, R83 to R85). -/
def OpRow.command : OpRow → CommandWord → Instr
  | .beginRow, _ => .beginCmd
  | .endRow, _ => .endCmd
  | .setLowSpeedRow, _ => .setLowSpeed
  | .setHighSpeedRow, _ => .setHighSpeed
  | .startRow, _ => .start
  | .stopRow, _ => .stop
  | .sendAddressRow, w => .sendAddress (w.extractLsb' 1 7) (w.extractLsb' 0 1)
  | .sendByteRow, w => .sendByte (w.extractLsb' 0 8)
  | .receiveByteRow, w => .receiveByte (w.extractLsb' 0 1)

/-- Why a word that no row matches is illegal (30_encoding.md R86). -/
def illegalReason (w : CommandWord) : IllegalWord :=
  match formatOf (w.extractLsb' 8 8) with
  | some _ => .reservedArgBits
  | none => .reservedOpcode

/-- `decode(W)`: the first row whose mask and match the word meets, else ILLEGAL (30_encoding.md R88). -/
def decode (w : CommandWord) : Decoded :=
  match OpRow.all.find? fun r => r.matchesWord w with
  | some r => .command (r.command w)
  | none => .illegal (illegalReason w)

/-- The command word a CMD write of `op` issues with the ARG register at `arg`: `OP` in the high byte
(30_encoding.md R80; 20_memory.md R52, R54). -/
def commandWord (op arg : Byte) : CommandWord :=
  op ++ arg

/-- OP of a command (30_encoding.md R82). -/
def Instr.op : Instr → Byte
  | .beginCmd => 0x01
  | .endCmd => 0x02
  | .setLowSpeed => 0x03
  | .setHighSpeed => 0x04
  | .start => 0x10
  | .stop => 0x11
  | .sendAddress _ _ => 0x12
  | .sendByte _ => 0x13
  | .receiveByte _ => 0x14

/-- ARG of a command: zero for format N; `(a << 1) | d`; the data byte; `0000000k` (30_encoding.md R81, R83 to
R85). -/
def Instr.argByte : Instr → Byte
  | .beginCmd => 0x00
  | .endCmd => 0x00
  | .setLowSpeed => 0x00
  | .setHighSpeed => 0x00
  | .start => 0x00
  | .stop => 0x00
  | .sendAddress a d => (a.setWidth 8 <<< 1) ||| d.setWidth 8
  | .sendByte d => d
  | .receiveByte k => k.setWidth 8

/-- The command word of a command (30_encoding.md R80 to R82). -/
def encode (i : Instr) : CommandWord :=
  commandWord i.op i.argByte

/-- The instruction the decoder reads from a word of `nbits` bits, numbered as spec/opcode_table.json numbers
them: bits 15..8 are OP, bits 7..0 are ARG, and a bit above `nbits` is 0, so a shorter word is read as the 16-bit word with zeros above it. A word of more than 16 bits is
no command word, whatever its bits (30_encoding.md R80; DESIGN CHOICE, log 1). -/
def decodeTableWord (nbits w : Nat) : Option Instr :=
  if nbits ≤ 16 then
    match decode (BitVec.ofNat 16 (w % 2 ^ nbits)) with
    | .command i => some i
    | .illegal _ => none
  else none

end Sys2Proof
end

