-- ==== Sys2Proof/Config.lean ====
section
/-! DEFINITION. The parameters of the hardware (00_scope.md section 3, R8; 10_state.md R38) and the free values.

`F_CPU_HZ` and `BASE` are OPEN in the spec: the model holds them beside the state (`Params`), so that every
statement is about every value, and the reset machine takes them from opaque constants, so that no proof can
see one. The environment's unscripted draws are opaque functions of a counter. -/

namespace Sys2Proof

/-- The low preset bus clock, nominal 100 kHz (00_scope.md section 3). -/
def lowSpeedHz : Nat := 100000

/-- The high preset bus clock, nominal 400 kHz (00_scope.md section 3). -/
def highSpeedHz : Nat := 400000

/-- The preset a speed selection names (10_state.md R29). -/
def Speed.hz : Speed → Nat
  | .low => lowSpeedHz
  | .high => highSpeedHz

/-- `BR(f) = ((F_CPU_HZ div f) - 16) div 2`, on naturals with floor division (40_config.md R100). -/
def bitRate (cpuHz busHz : Nat) : Nat :=
  (cpuHz / busHz - 16) / 2

/-- One preset has a legal bit-rate value: the divisor does not go negative and the value fits the register
(40_config.md R100). -/
def presetLegal (cpuHz busHz : Nat) : Bool :=
  decide (16 ≤ cpuHz / busHz) && decide (bitRate cpuHz busHz ≤ 255)

/-- A legal configuration: both presets have a legal value (40_config.md R100, 00_scope.md R8). -/
def clockLegal (cpuHz : Nat) : Bool :=
  presetLegal cpuHz lowSpeedHz && presetLegal cpuHz highSpeedHz

/-- A CPU clock with a legal configuration. "A configuration with no legal value is refused: the model has no
instance for it" (00_scope.md R8). -/
structure LegalClock where
  hz : Nat
  legal : clockLegal hz = true
deriving DecidableEq, Repr

/-- `STATUS_DRAW`: which status codes the environment may report (00_scope.md section 3, 20_memory.md R61). -/
inductive StatusDraw where
  | any
  | protocol
deriving DecidableEq, Repr

/-- The parameters of the model that the spec lists in 10_state.md R38. No step changes them. -/
structure Params where
  clock : LegalClock
  base : Nat
  statusDraw : StatusDraw
deriving DecidableEq, Repr

/-- The constant `BR_LOW` or `BR_HIGH` a speed selection names, as the byte BITRATE takes (40_config.md R100).
For a legal clock the value fits the byte. -/
def Params.bitRateOf (p : Params) (v : Speed) : Byte :=
  BitVec.ofNat 8 (bitRate p.clock.hz v.hz)

/-- The bus clock that BITRATE and PS select: `F_CPU_HZ / (16 + 2 * BITRATE * 4^PS)` (70_reset_and_hazards.md
R253, from general knowledge). The spec writes `/` and states no rounding: the model takes the exact quotient, a
rational number of Hz (DEDUCED, log 22). Timing only: no rule of the model depends on it (40_config.md R105). -/
def Params.sclHz (p : Params) (bitrate : Byte) (prescalerSelect : BitVec 2) : Rat :=
  (p.clock.hz : Rat) / ((16 + 2 * bitrate.toNat * 4 ^ prescalerSelect.toNat : Nat) : Rat)

/-- The number the reset machine's CPU clock is made from; no proof can see it. -/
opaque Config.cpuClockSource : Nat

/-- `F_CPU_HZ` of the reset machine: OPEN in the spec (00_scope.md section 3). Every legal clock is the value of
this definition for some source number; 16 MHz, the clock of the spec's test vectors, only shows that a legal
clock exists (log 4). -/
def Config.clock : LegalClock :=
  if h : clockLegal Config.cpuClockSource = true then ⟨Config.cpuClockSource, h⟩ else ⟨16000000, by decide⟩

/-- `BASE` of the reset machine: OPEN in the spec (20_memory.md R50). -/
opaque Config.base : Nat

/-- Whether the unscripted environment completes the pending phase at this draw; it may never (20_memory.md
R61, R62). -/
opaque Config.envCompletes : Nat → Bool

/-- The status code the unscripted environment draws (20_memory.md R61). -/
opaque Config.envCode : Nat → StatusCode

/-- The received byte the environment draws where no script names one (20_memory.md R61). -/
opaque Config.envByte : Nat → Byte

end Sys2Proof
end

