-- ==== Sys2Proof/Machine/State.lean ====
section
/-! DEFINITION. The state of the machine (10_state.md), and the reasons a step can stop.

The block's registers and hidden state, the ghost state of the spec, the host and its program, the parameters,
and the model's own fields: the environment's policy and the moves to come. INVENTORY.md, '## State', lists
every field. -/

namespace Sys2Proof.Machine

/-- A bus phase of the sequencer (20_memory.md R57). -/
inductive Phase where
  /-- a start condition; a repeated start if the block already holds the bus -/
  | start
  /-- a stop condition -/
  | stop
  /-- transmits the SLA byte and samples ACK or NACK -/
  | addr (b : Byte)
  /-- transmits a data byte and samples ACK or NACK -/
  | tx (b : Byte)
  /-- receives one byte, then sends ACK (`k` = 1) or NACK (`k` = 0) -/
  | rx (k : BitVec 1)
deriving DecidableEq, Repr

/-- What the environment completes a phase with: the status code (the masked status is the code and three zero
bits) and, for RX only, the received byte (20_memory.md R60, R61; log 17). -/
structure PhaseOutcome where
  code : StatusCode
  byte : Byte
deriving DecidableEq, Repr

/-- The events of the ghost trace (20_memory.md R65). -/
inductive Event where
  | issue (op arg : Byte)
  | cw (v : Byte)
  | dw (b : Byte)
  | ph (p : Phase)
  /-- `OC(s)`, or `OC(s, b)` for RX -/
  | oc (s : Byte) (b : Option Byte)
  | res (r : Byte)
  | rst
deriving DecidableEq, Repr

/-- The engine state (10_state.md R30). The latched command holds its op and arg (log 2). -/
inductive Eng where
  /-- no command in flight -/
  | idle
  /-- a command has been accepted and its first engine step has not yet run -/
  | issued (c : Instr)
  /-- the command's main phase has been launched and the engine holds in Await() -/
  | wMain (c : Instr)
  /-- a STOP phase has been launched and the engine holds; `saved` is the NACK status to report, or none -/
  | wStop (c : Instr) (saved : Option Byte)
deriving DecidableEq, Repr

/-- The reasons of a host fault (60_exceptions.md R209). -/
inductive FaultReason where
  /-- `BUSY`: CMD written while ENGSTAT.BUSY = 1 -/
  | busy
  /-- `ILLEGAL`: an illegal command word -/
  | illegal
  /-- `DISABLED`: a command but BEGIN while CTRL.EN = 0 -/
  | disabled
  /-- `MIDTXN`: BEGIN or a speed command while txn_open -/
  | midTxn
  /-- `NO_TXN`: a data-phase command while not txn_open -/
  | noTxn
  /-- `HOST_ACCESS`: a write to a read-only register, or a non-byte access to the window -/
  | hostAccess
deriving DecidableEq, Repr

/-- A line of a host program: a command, or `READ <register>` (43_composite.md R160). -/
inductive Line where
  | command (c : Instr)
  | read (r : Reg)
deriving DecidableEq, Repr

/-- Where the host stands in RunProgram (43_composite.md R160). -/
inductive HostStage where
  /-- no program runs: none was started, or a reset abandoned it -/
  | absent
  /-- at the head of the loop, about to take line `hpc` -/
  | fetch
  /-- ARG of the line is written; CMD is to be written with `op` -/
  | deliver (op : Byte)
  /-- polling ENGSTAT.BUSY -/
  | poll
  /-- BUSY has read 0; RESULT is to be read -/
  | result
  /-- RunProgram has returned `r` -/
  | returned (r : Byte)
deriving DecidableEq, Repr

/-- The host's run of a program: its lines, its counter `hpc`, `last`, and its place in the loop
(43_composite.md R160). -/
structure HostRun where
  lines : List Line
  hpc : Nat
  last : Byte
  stage : HostStage
deriving DecidableEq, Repr

/-- The environment's policy where no explicit completion is among the moves (log 8). -/
inductive Env where
  /-- ACK_ENV (20_memory.md R64), with the received bytes the test names, in order -/
  | ack (rx : List Byte)
  /-- a script of outcomes in phase order; when it is used up, no phase completes any more -/
  | script (outcomes : List PhaseOutcome)
  /-- the unconstrained draw of 20_memory.md R61 -/
  | draw
deriving DecidableEq, Repr

/-- A host access to its address space: `width` bytes from `addr` (20_memory.md R51). -/
inductive Access where
  | read (addr width : Nat)
  /-- `v` is the byte written at `addr`; it matters for a one-byte access only -/
  | write (addr width : Nat) (v : Byte)
deriving DecidableEq, Repr

/-- One move of one agent (00_scope.md R5, R9). -/
inductive Turn where
  /-- the engine takes its step, if one is enabled -/
  | engine
  /-- the environment completes the pending phase with this outcome -/
  | complete (o : PhaseOutcome)
  /-- the environment takes its step by its policy -/
  | environment
  /-- the host takes the next access of its program -/
  | program
  /-- the host makes this access -/
  | access (a : Access)
  /-- the host starts a run of these lines -/
  | run (lines : List Line)
  /-- the host asserts reset -/
  | reset
deriving DecidableEq, Repr

/-- The state of the machine. -/
structure State where
  /-- CTRL (10_state.md R21) -/
  ctrl : Byte
  /-- STATUS (10_state.md R22) -/
  status : Byte
  /-- DATA (10_state.md R23) -/
  data : Byte
  /-- BITRATE (10_state.md R24) -/
  bitrate : Byte
  /-- ARG (10_state.md R25) -/
  arg : Byte
  /-- RESULT (10_state.md R27) -/
  result : Byte
  /-- SPEED_SEL (10_state.md R29) -/
  speedSel : Speed
  /-- the engine state (10_state.md R30) -/
  eng : Eng
  /-- the pending phase, `none` for NONE (10_state.md R32) -/
  pend : Option Phase
  /-- ghost: an open transaction holds the bus (10_state.md R31) -/
  txnOpen : Bool
  /-- ghost: the host fault recorded, sticky (10_state.md R33) -/
  fault : Option FaultReason
  /-- ghost: the events in the order they occurred (10_state.md R34) -/
  trace : List Event
  /-- the host's program run (43_composite.md R160) -/
  host : HostRun
  /-- the model's own: the bytes the host has read from the window, in order -/
  reads : List Byte
  /-- the parameters (10_state.md R38); no step changes them -/
  params : Params
  /-- the model's own: a host fault has been raised and no reset has come since (20_memory.md R52, log 6) -/
  quiescent : Bool
  /-- the model's own: the environment's policy (log 8) -/
  env : Env
  /-- the model's own: the moves to come, first to last (log 7) -/
  turns : List Turn
  /-- the model's own: the counter the free draws are applied to (log 8) -/
  tick : Nat
deriving DecidableEq, Repr

/-- Why a step stops with a fault. -/
inductive Fault where
  /-- Raised by every turn but a reset in a quiescent state, with the host fault recorded: the hardware's
  behaviour there is not specified (60_exceptions.md R209) and "the faulted state is quiescent" (20_memory.md
  R52). Safe: the model stops where hardware may go on. -/
  | quiescent (reason : Option FaultReason)
  /-- Raised by a meaning asked to go on from a hold its command does not have (a configuration command in a
  hold, START in a STOP phase); 10_state.md R30 has no such engine state and no run reaches one. Safe. -/
  | noSuchHold
deriving DecidableEq, Repr

/-- Why a step is refused. -/
inductive Refusal where
  /-- An instruction with no meaning yet, by its mnemonic. Raised by no arm of this model. Safe. -/
  | notModelled (mnemonic : String)
deriving DecidableEq, Repr

/-- No program run (model's own value at reset, log 9). -/
def HostRun.absent : HostRun :=
  { lines := [], hpc := 0, last := 0x00, stage := .absent }

/-- The machine right after reset, at the start of a model run: every register and every hidden and ghost state
at the value of 10_state.md R37, the ghost fault `none` and the ghost trace empty (R33, R34; log 10). The
parameters are the opaque constants of Config; the model's own fields have the values of log 6 to log 9. -/
def State.reset : State where
  ctrl := 0x00
  status := 0xF8
  data := 0xFF
  bitrate := 0x00
  arg := 0x00
  result := 0x00
  speedSel := .low
  eng := .idle
  pend := none
  txnOpen := false
  fault := none
  trace := []
  host := HostRun.absent
  reads := []
  params := { clock := Config.clock, base := Config.base, statusDraw := .any }
  quiescent := false
  env := .draw
  turns := []
  tick := 0

end Sys2Proof.Machine
end

