-- ==== Sys2Proof/Machine/Flags.lean ====
section
/-! DEFINITION. Every flag and field computation: CTRL, STATUS and ENGSTAT, the detector's classification of a
masked status, and the result encoding. -/

namespace Sys2Proof.Machine

/-! ### CTRL (10_state.md R21) -/

/-- CTRL.INT, the operation-complete flag. -/
def ctrlInt (c : Byte) : Bool := c.getLsbD 7

/-- CTRL.EA, acknowledge enable. -/
def ctrlEa (c : Byte) : Bool := c.getLsbD 6

/-- CTRL.STA, start request. -/
def ctrlSta (c : Byte) : Bool := c.getLsbD 5

/-- CTRL.STO, stop request. -/
def ctrlSto (c : Byte) : Bool := c.getLsbD 4

/-- CTRL.EN, peripheral enable. -/
def ctrlEn (c : Byte) : Bool := c.getLsbD 2

/-- The bits EA, STA, STO and EN, which take the written value; bits 3, 1 and 0 are discarded (20_memory.md
R58). -/
def ctrlWritableBits : Byte := 0x74

/-- CTRL after an engine write of `v` (20_memory.md R58): with EN written 0 every field is cleared; otherwise
INT is write-1-to-clear and EA, STA, STO, EN take the written value. -/
def ctrlAfterWrite (old v : Byte) : Byte :=
  if ctrlEn v then (v &&& ctrlWritableBits) ||| (if ctrlInt v then 0x00 else old &&& 0x80) else 0x00

/-- CTRL after a phase completes: INT set, STO cleared (20_memory.md R60). -/
def ctrlAfterCompletion (c : Byte) : Byte :=
  (c ||| 0x80) &&& ~~~0x10#8

/-! ### STATUS (10_state.md R22) -/

/-- The masked status `s = STATUS & 0xF8`. -/
def maskStatus (status : Byte) : Byte :=
  status &&& 0xF8

/-- The masked status of a code, `CODE : 0b000`. -/
def statusOfCode (c : StatusCode) : Byte :=
  c ++ 0#3

/-- STATUS after the sequencer writes CODE; the lower bits are unchanged (20_memory.md R60). -/
def statusWithCode (status : Byte) (c : StatusCode) : Byte :=
  statusOfCode c ||| (status &&& 0x07)

/-- STATUS after BEGIN writes PS = 0b00 (40_config.md R101). -/
def statusWithPrescaler1 (status : Byte) : Byte :=
  status &&& 0xFC

/-- `STATUS[1:0]`, PS. -/
def statusPs (status : Byte) : BitVec 2 :=
  status.extractLsb' 0 2

/-! ### ENGSTAT (10_state.md R28) -/

/-- ENGSTAT: BUSY in bit 0, SPD in bit 1, bits 7 to 2 read 0. -/
def engstatValue (busy : Bool) (v : Speed) : Byte :=
  (if busy then 0x01 else 0x00) ||| (match v with | .low => 0x00 | .high => 0x02)

/-- ENGSTAT.BUSY of a value read. -/
def engstatBusy (v : Byte) : Bool := v.getLsbD 0

/-! ### The detector (60_exceptions.md R200 to R202) -/

/-- The classification of a masked status (60_exceptions.md R200). -/
inductive Verdict where
  | success
  | nack
  | fail
deriving DecidableEq, Repr

/-- START's row: 0x08 and 0x10 are successes, every other status fails (60_exceptions.md R200). -/
def verdictStart (s : Byte) : Verdict :=
  if s = 0x08 ∨ s = 0x10 then .success else .fail

/-- STOP's row, also for the stop phase of a NACK path (60_exceptions.md R200). -/
def verdictStop (s : Byte) : Verdict :=
  if s = 0xF8 then .success else .fail

/-- SEND_ADDRESS's row, whatever the direction (60_exceptions.md R200, 42_data_phase.md R140). -/
def verdictSendAddress (s : Byte) : Verdict :=
  if s = 0x18 ∨ s = 0x40 then .success
  else if s = 0x20 ∨ s = 0x48 then .nack
  else .fail

/-- SEND_BYTE's row (60_exceptions.md R200). -/
def verdictSendByte (s : Byte) : Verdict :=
  if s = 0x28 then .success
  else if s = 0x30 then .nack
  else .fail

/-- RECEIVE_BYTE's row, whatever the ack operand; there is no NACK path (60_exceptions.md R200, 42_data_phase.md
R142). -/
def verdictReceiveByte (s : Byte) : Verdict :=
  if s = 0x50 ∨ s = 0x58 then .success else .fail

/-- `classify(c, s)` (60_exceptions.md R200); the configuration commands have no phase and no row. -/
def classify : Instr → Byte → Option Verdict
  | .beginCmd, _ => none
  | .endCmd, _ => none
  | .setLowSpeed, _ => none
  | .setHighSpeed, _ => none
  | .start, s => some (verdictStart s)
  | .stop, s => some (verdictStop s)
  | .sendAddress _ _, s => some (verdictSendAddress s)
  | .sendByte _, s => some (verdictSendByte s)
  | .receiveByte _, s => some (verdictReceiveByte s)

/-- The detector's named conditions (60_exceptions.md R201). -/
inductive Condition where
  | busError
  | start
  | repStart
  | mtSlaAck
  | mtSlaNack
  | mtDataAck
  | mtDataNack
  | arbLost
  | mrSlaAck
  | mrSlaNack
  | mrDataAck
  | mrDataNack
  | stopCompleted
  | unrecognized
deriving DecidableEq, Repr

/-- The named condition of a masked status (60_exceptions.md R201). -/
def conditionOf (s : Byte) : Condition :=
  if s = 0x00 then .busError
  else if s = 0x08 then .start
  else if s = 0x10 then .repStart
  else if s = 0x18 then .mtSlaAck
  else if s = 0x20 then .mtSlaNack
  else if s = 0x28 then .mtDataAck
  else if s = 0x30 then .mtDataNack
  else if s = 0x38 then .arbLost
  else if s = 0x40 then .mrSlaAck
  else if s = 0x48 then .mrSlaNack
  else if s = 0x50 then .mrDataAck
  else if s = 0x58 then .mrDataNack
  else if s = 0xF8 then .stopCompleted
  else .unrecognized

/-- `enc(s)`, the failure result encoding: 0x00 becomes 0xFF (60_exceptions.md R202). -/
def enc (s : Byte) : Byte :=
  if s = 0x00 then 0xFF else s

end Sys2Proof.Machine
end

