-- ==== Sys2Proof/Machine/Operands.lean ====
section
/-! DEFINITION. The operand forms: the bytes a command puts on the bus, the CTRL values it writes, the phase it
launches, and the classes of commands the issue checks speak of. -/

namespace Sys2Proof.Machine

/-- The SLA byte `(a << 1) | d` (30_encoding.md R83). -/
def slaByte (a : BitVec 7) (d : BitVec 1) : Byte :=
  a ++ d

/-- BEGIN's CTRL value: EN and EA (40_config.md R101). -/
def ctrlBegin : Byte := 0x44

/-- END's CTRL value, also the first write of a recovery (40_config.md R102, 60_exceptions.md R204). -/
def ctrlOff : Byte := 0x00

/-- START's CTRL value: INT, STA, EN (41_bus_conditions.md R120). -/
def ctrlStart : Byte := 0xA4

/-- The stop micro-sequence's CTRL value: INT, STO, EN (41_bus_conditions.md R121). -/
def ctrlStop : Byte := 0x94

/-- SEND_ADDRESS's and SEND_BYTE's CTRL value: INT, EN (42_data_phase.md R140, R141). -/
def ctrlSend : Byte := 0x84

/-- RECEIVE_BYTE's CTRL value: INT, EN, and EA = k (42_data_phase.md R142). -/
def ctrlReceive (k : BitVec 1) : Byte :=
  if k = 1 then 0xC4 else 0x84

/-- The second CTRL write of a recovery: EN and EA (60_exceptions.md R204). -/
def ctrlRecover : Byte := 0x44

/-- The main phase a command launches (20_memory.md R57); STOP launches its phase in the stop micro-sequence,
and the configuration commands launch none. -/
def mainPhase : Instr → Option Phase
  | .beginCmd => none
  | .endCmd => none
  | .setLowSpeed => none
  | .setHighSpeed => none
  | .start => some .start
  | .stop => none
  | .sendAddress a d => some (.addr (slaByte a d))
  | .sendByte d => some (.tx d)
  | .receiveByte k => some (.rx k)

/-- BEGIN, SET_LOW_SPEED or SET_HIGH_SPEED (60_exceptions.md R210, check 4). -/
def isReconfiguration : Instr → Bool
  | .beginCmd => true
  | .endCmd => false
  | .setLowSpeed => true
  | .setHighSpeed => true
  | .start => false
  | .stop => false
  | .sendAddress _ _ => false
  | .sendByte _ => false
  | .receiveByte _ => false

/-- SEND_ADDRESS, SEND_BYTE or RECEIVE_BYTE (60_exceptions.md R210, check 5). -/
def isDataPhase : Instr → Bool
  | .beginCmd => false
  | .endCmd => false
  | .setLowSpeed => false
  | .setHighSpeed => false
  | .start => false
  | .stop => false
  | .sendAddress _ _ => true
  | .sendByte _ => true
  | .receiveByte _ => true

/-- An RX phase, the one kind that brings a byte (20_memory.md R60). -/
def Phase.isRx : Phase → Bool
  | .start => false
  | .stop => false
  | .addr _ => false
  | .tx _ => false
  | .rx _ => true

/-- The offset of a register in the window (10_state.md R20). -/
def regOffset : Reg → Nat
  | .ctrl => 0
  | .status => 1
  | .data => 2
  | .bitrate => 3
  | .arg => 4
  | .cmd => 5
  | .result => 6
  | .engstat => 7

/-- The register at an offset of the window (10_state.md R20). -/
def regAt : Nat → Option Reg
  | 0 => some .ctrl
  | 1 => some .status
  | 2 => some .data
  | 3 => some .bitrate
  | 4 => some .arg
  | 5 => some .cmd
  | 6 => some .result
  | 7 => some .engstat
  | _ => none

/-- The first address of a host access. -/
def Access.addr : Access → Nat
  | .read a _ => a
  | .write a _ _ => a

/-- The width of a host access in bytes. -/
def Access.width : Access → Nat
  | .read _ w => w
  | .write _ w _ => w

end Sys2Proof.Machine
end

