-- ==== Sys2Proof/Machine/Ops.lean ====
section
/-! DEFINITION. The named operations every meaning is written over: the engine's writes, the sequencer's launch
and completion, the exits of a command, the recovery and the stop micro-sequence, the host's window, raising a
host fault, and reset. Each is one flat record update, so that each of its effects is a one-line fact. -/

namespace Sys2Proof.Machine

/-! ### Views -/

/-- ENGSTAT.BUSY: 1 in every engine state but IDLE (10_state.md R28, R30). -/
def State.busy (s : State) : Bool :=
  decide (s.eng ≠ .idle)

/-- ENGSTAT (10_state.md R28). -/
def State.engstat (s : State) : Byte :=
  engstatValue s.busy s.speedSel

/-- CTRL.EN (10_state.md R21). -/
def State.enabled (s : State) : Bool :=
  ctrlEn s.ctrl

/-- The masked status `STATUS & 0xF8`, which an Await() returns at completion (20_memory.md R60). -/
def State.maskedStatus (s : State) : Byte :=
  maskStatus s.status

/-! ### Engine writes and the sequencer (20_memory.md R58 to R60) -/

/-- Appends an event to the trace (10_state.md R34). -/
def State.log (s : State) (e : Event) : State :=
  { s with trace := s.trace ++ [e] }

/-- `CtrlWrite(v)` (20_memory.md R58). -/
def State.ctrlWrite (s : State) (v : Byte) : State :=
  { s with
    trace := s.trace ++ [.cw v]
    ctrl := ctrlAfterWrite s.ctrl v
    pend := if ctrlEn v then s.pend else none }

/-- `DataWrite(b)` (20_memory.md R58). -/
def State.dataWrite (s : State) (b : Byte) : State :=
  { s with trace := s.trace ++ [.dw b], data := b }

/-- `Launch(p)` (20_memory.md R59). -/
def State.launch (s : State) (p : Phase) : State :=
  { s with trace := s.trace ++ [.ph p], pend := some p }

/-- `Complete(s, b)` for the pending phase `p` (20_memory.md R60). The engine's Await() returns the masked
status, which STATUS keeps until the next completion. -/
def State.completePhase (s : State) (p : Phase) (o : PhaseOutcome) : State :=
  { s with
    status := statusWithCode s.status o.code
    ctrl := ctrlAfterCompletion s.ctrl
    data := if p.isRx then o.byte else s.data
    trace := s.trace ++ [.oc (statusOfCode o.code) (if p.isRx then some o.byte else none)]
    pend := none }

/-- The engine goes into a hold (10_state.md R30). -/
def State.hold (s : State) (e : Eng) : State :=
  { s with eng := e }

/-! ### The exits of a command (60_exceptions.md R203 to R206) -/

/-- `Finish(r)` (60_exceptions.md R203). -/
def State.finish (s : State) (r : Byte) : State :=
  { s with result := r, eng := .idle, trace := s.trace ++ [.res r] }

/-- The ghost txn_open is set (10_state.md R31). -/
def State.setTxnOpen (s : State) (open? : Bool) : State :=
  { s with txnOpen := open? }

/-- `Recover()`, the stuck-bus recovery: CTRL cleared, then re-enabled with acknowledge on (60_exceptions.md
R204). -/
def State.recover (s : State) : State :=
  ((s.ctrlWrite ctrlOff).ctrlWrite ctrlRecover).setTxnOpen false

/-- `FailExit(s)`, the failure path (60_exceptions.md R206). -/
def State.failExit (s : State) (st : Byte) : State :=
  s.recover.finish (enc st)

/-- `StopSeq(op, saved)` up to its hold (41_bus_conditions.md R121). -/
def State.stopSeqLaunch (s : State) (c : Instr) (saved : Option Byte) : State :=
  ((s.ctrlWrite ctrlStop).launch .stop).hold (.wStop c saved)

/-- `StopSeq(op, saved)` after its hold, with the masked status its Await() returned: the transaction is closed,
and a failed stop recovers the bus, once (41_bus_conditions.md R121). -/
def State.stopSeqEnd (s : State) (st : Byte) : State :=
  match verdictStop st with
  | .success => s.setTxnOpen false
  | .nack => (s.setTxnOpen false).recover
  | .fail => (s.setTxnOpen false).recover

/-! ### Where an engine step starts (00_scope.md R9, 10_state.md R30; log 18) -/

/-- Where the engine stands in the rule of the command in flight. -/
inductive Stage where
  /-- at the rule's first statement -/
  | first
  /-- in a hold whose phase has not completed -/
  | awaiting
  /-- the main phase has completed with this masked status -/
  | mainDone (st : Byte)
  /-- the stop phase has completed with this masked status; `saved` as latched -/
  | stopDone (saved : Option Byte) (st : Byte)
deriving DecidableEq, Repr

/-- The engine's place, from the engine state and the pending phase. IDLE counts as the first statement: the
engine itself takes no step there (log 11). -/
def State.stage (s : State) : Stage :=
  match s.eng with
  | .idle => .first
  | .issued _ => .first
  | .wMain _ => if s.pend = none then .mainDone s.maskedStatus else .awaiting
  | .wStop _ saved => if s.pend = none then .stopDone saved s.maskedStatus else .awaiting

/-- The command in flight (10_state.md R30). -/
def Eng.command : Eng → Option Instr
  | .idle => none
  | .issued c => some c
  | .wMain c => some c
  | .wStop c _ => some c

/-- An engine step is enabled: a command is in flight and does not hold on a pending phase (00_scope.md R9). -/
def State.engineReady (s : State) : Bool :=
  match s.eng with
  | .idle => false
  | .issued _ => true
  | .wMain _ => decide (s.pend = none)
  | .wStop _ _ => decide (s.pend = none)

/-- An engine step of a configuration command: from `ISSUED` to `Finish` in one step, with no hold
(40_config.md). -/
def State.configStep (s : State) (done : State) : Host.Outcome State Fault Refusal :=
  match s.stage with
  | .first => .next done
  | .awaiting => .fault .noSuchHold
  | .mainDone _ => .fault .noSuchHold
  | .stopDone _ _ => .fault .noSuchHold

/-! ### Host faults (60_exceptions.md R209, R210) -/

/-- `raise Fault(reason)`: the one way a host fault is taken. The reason is recorded (log 16) and the state becomes
quiescent; no command is issued and no register changes (20_memory.md R52, 10_state.md R33). -/
def State.raiseFault (s : State) (r : FaultReason) : State :=
  { s with fault := some r, quiescent := true }

/-- What the issue checks answer. -/
inductive IssueVerdict where
  | accept (c : Instr)
  | reject (r : FaultReason)
deriving DecidableEq, Repr

/-- The issue checks of `Issue(op : arg)`, in their order: BUSY, ILLEGAL, DISABLED, MIDTXN, NO_TXN
(60_exceptions.md R210). -/
def issueCheck (s : State) (op : Byte) : IssueVerdict :=
  if s.busy then .reject .busy
  else
    match decode (commandWord op s.arg) with
    | .illegal _ => .reject .illegal
    | .command c =>
      if c ≠ .beginCmd ∧ s.enabled = false then .reject .disabled
      else if isReconfiguration c = true ∧ s.txnOpen = true then .reject .midTxn
      else if isDataPhase c = true ∧ s.txnOpen = false then .reject .noTxn
      else .accept c

/-- The command is accepted: the trace records it and the engine latches it; BUSY reads 1 from here on
(20_memory.md R52). -/
def State.accept (s : State) (op : Byte) (c : Instr) : State :=
  { s with trace := s.trace ++ [.issue op s.arg], eng := .issued c }

/-- `Issue(op : ARG)`, a host write of `op` to CMD (20_memory.md R52). -/
def State.issue (s : State) (op : Byte) : State :=
  match issueCheck s op with
  | .accept c => s.accept op c
  | .reject r => s.raiseFault r

/-! ### The register window (20_memory.md R50 to R53) -/

/-- `HostRead(off)`: the register's value; CMD reads 0x00; no side effect (20_memory.md R53). -/
def State.hostRead (s : State) : Reg → Byte
  | .ctrl => s.ctrl
  | .status => s.status
  | .data => s.data
  | .bitrate => s.bitrate
  | .arg => s.arg
  | .cmd => 0x00
  | .result => s.result
  | .engstat => s.engstat

/-- ARG takes the written byte, in every engine state (20_memory.md R52, 10_state.md R25). -/
def State.setArg (s : State) (v : Byte) : State :=
  { s with arg := v }

/-- `HostWrite(off, v)`: ARG is written, CMD issues, every other register is read-only (20_memory.md R52). -/
def State.hostWrite (s : State) (r : Reg) (v : Byte) : State :=
  match r with
  | .arg => s.setArg v
  | .cmd => s.issue v
  | .ctrl => s.raiseFault .hostAccess
  | .status => s.raiseFault .hostAccess
  | .data => s.raiseFault .hostAccess
  | .bitrate => s.raiseFault .hostAccess
  | .result => s.raiseFault .hostAccess
  | .engstat => s.raiseFault .hostAccess

/-- The host notes a byte it has read (43_composite.md R160, `value <- HostRead`); the block does not change. -/
def State.noteRead (s : State) (v : Byte) : State :=
  { s with reads := s.reads ++ [v] }

/-- The access touches the window `BASE + 0` to `BASE + 7` (20_memory.md R50, R51). -/
def touchesWindow (base : Nat) (a : Access) : Bool :=
  decide (a.addr < base + 8) && decide (base < a.addr + a.width) && decide (a.width ≠ 0)

/-- A host access: outside the window it is not this block's (20_memory.md R50; log 19); a width other than one byte
that touches the window, a straddling access among them, faults (R51); a byte access reads or writes its
register (R52, R53). -/
def State.hostAccess (s : State) (a : Access) : State :=
  if touchesWindow s.params.base a = false then s
  else if a.width ≠ 1 then s.raiseFault .hostAccess
  else
    match regAt (a.addr - s.params.base), a with
    | some r, .read _ _ => s.noteRead (s.hostRead r)
    | some r, .write _ _ v => s.hostWrite r v
    | none, _ => s

/-! ### Reset (70_reset_and_hazards.md R240) -/

/-- `Reset()`: every register and hidden state takes its value of 10_state.md R37, the command and the phase in
flight are abandoned, RST is appended, and the ghost fault is kept. The host's program is abandoned
(95_test_vectors.md P4), and the state is no longer quiescent (log 6). -/
def State.resetAct (s : State) : State :=
  { s with
    ctrl := 0x00
    status := 0xF8
    data := 0xFF
    bitrate := 0x00
    arg := 0x00
    result := 0x00
    speedSel := .low
    eng := .idle
    pend := none
    txnOpen := false
    trace := s.trace ++ [.rst]
    host := HostRun.absent
    quiescent := false }

end Sys2Proof.Machine
end

