-- ==== Sys2Proof/Machine/BusConditions.lean ====
section
/-! DEFINITION. The bus-condition commands START and STOP (41_bus_conditions.md). A meaning is one engine step of
its command: from the rule's first statement to the first hold, or from a completed phase on. -/

namespace Sys2Proof.Machine

/-- START: a start condition, or a repeated start while a transaction is open (41_bus_conditions.md R120). -/
def execStart (s : State) : Host.Outcome State Fault Refusal :=
  match s.stage with
  | .first => .next (((s.ctrlWrite ctrlStart).launch .start).hold (.wMain .start))
  | .awaiting => .next s
  | .mainDone st =>
    match verdictStart st with
    | .success => .next ((s.setTxnOpen true).finish 0x00)
    | .nack => .next (s.failExit st)
    | .fail => .next (s.failExit st)
  | .stopDone _ _ => .fault .noSuchHold

/-- STOP: the stop micro-sequence, then the result 0x00, or `enc` of the status of a failed stop, which the
micro-sequence has already recovered from (41_bus_conditions.md R122). -/
def execStop (s : State) : Host.Outcome State Fault Refusal :=
  match s.stage with
  | .first => .next (s.stopSeqLaunch .stop none)
  | .awaiting => .next s
  | .mainDone _ => .fault .noSuchHold
  | .stopDone none st =>
    match verdictStop st with
    | .success => .next ((s.stopSeqEnd st).finish 0x00)
    | .nack => .next ((s.stopSeqEnd st).finish (enc st))
    | .fail => .next ((s.stopSeqEnd st).finish (enc st))
  | .stopDone (some _) _ => .fault .noSuchHold

end Sys2Proof.Machine
end

