-- ==== Sys2Proof/Machine/Configuration.lean ====
section
/-! DEFINITION. The configuration commands BEGIN, END, SET_LOW_SPEED and SET_HIGH_SPEED (40_config.md). Each runs
from `ISSUED` to `Finish` in one engine step, with no bus phase, and its result is always 0x00. -/

namespace Sys2Proof.Machine

/-- BEGIN selects prescaler factor 1 (40_config.md R101). -/
def State.setPrescaler1 (s : State) : State :=
  { s with status := statusWithPrescaler1 s.status }

/-- BITRATE takes the constant of a speed selection (40_config.md R100). -/
def State.setBitrate (s : State) (v : Speed) : State :=
  { s with bitrate := s.params.bitRateOf v }

/-- SPEED_SEL takes a selection (10_state.md R29). -/
def State.setSpeed (s : State) (v : Speed) : State :=
  { s with speedSel := v }

/-- BEGIN, initialise and enable (40_config.md R101). -/
def execBegin (s : State) : Host.Outcome State Fault Refusal :=
  s.configStep (((s.setPrescaler1.setBitrate s.speedSel).ctrlWrite ctrlBegin).finish 0x00)

/-- END, disable; RESULT takes 0x00 (40_config.md R102; log 14). -/
def execEnd (s : State) : Host.Outcome State Fault Refusal :=
  s.configStep (((s.ctrlWrite ctrlOff).setTxnOpen false).finish 0x00)

/-- SET_LOW_SPEED, select the 100 kHz preset (40_config.md R103). -/
def execSetLowSpeed (s : State) : Host.Outcome State Fault Refusal :=
  s.configStep (((s.setSpeed .low).setBitrate .low).finish 0x00)

/-- SET_HIGH_SPEED, select the 400 kHz preset (40_config.md R104). -/
def execSetHighSpeed (s : State) : Host.Outcome State Fault Refusal :=
  s.configStep (((s.setSpeed .high).setBitrate .high).finish 0x00)

end Sys2Proof.Machine
end

