-- ==== Sys2Proof/Machine/DataPhase.lean ====
section
/-! DEFINITION. The data-phase commands SEND_ADDRESS, SEND_BYTE and RECEIVE_BYTE (42_data_phase.md). A meaning is
one engine step of its command: from the rule's first statement to the first hold, or from a completed phase
on. -/

namespace Sys2Proof.Machine

/-- The first engine step of a send: DATA, then CTRL, then the phase, then the hold (42_data_phase.md R140,
R141). -/
def State.sendLaunch (s : State) (b : Byte) (p : Phase) (c : Instr) : State :=
  (((s.dataWrite b).ctrlWrite ctrlSend).launch p).hold (.wMain c)

/-- A send after its main phase, by the verdict on its masked status: finish, the NACK path, or the failure
path (42_data_phase.md R140, R141; 60_exceptions.md R205, R206). -/
def State.sendDone (s : State) (v : Verdict) (st : Byte) (c : Instr) : State :=
  match v with
  | .success => s.finish 0x00
  | .nack => s.stopSeqLaunch c (some st)
  | .fail => s.failExit st

/-- The end of the NACK path: the stop's own status is not reported, the NACK status is (60_exceptions.md
R205). -/
def State.nackDone (s : State) (saved st : Byte) : State :=
  (s.stopSeqEnd st).finish saved

/-- SEND_ADDRESS: transmit the SLA byte `(a << 1) | d` (42_data_phase.md R140). -/
def execSendAddress (a : BitVec 7) (d : BitVec 1) (s : State) : Host.Outcome State Fault Refusal :=
  match s.stage with
  | .first => .next (s.sendLaunch (slaByte a d) (.addr (slaByte a d)) (.sendAddress a d))
  | .awaiting => .next s
  | .mainDone st => .next (s.sendDone (verdictSendAddress st) st (.sendAddress a d))
  | .stopDone (some saved) st => .next (s.nackDone saved st)
  | .stopDone none _ => .fault .noSuchHold

/-- SEND_BYTE: transmit one data byte (42_data_phase.md R141). -/
def execSendByte (d : Byte) (s : State) : Host.Outcome State Fault Refusal :=
  match s.stage with
  | .first => .next (s.sendLaunch d (.tx d) (.sendByte d))
  | .awaiting => .next s
  | .mainDone st => .next (s.sendDone (verdictSendByte st) st (.sendByte d))
  | .stopDone (some saved) st => .next (s.nackDone saved st)
  | .stopDone none _ => .fault .noSuchHold

/-- RECEIVE_BYTE: receive one byte and ACK (`k` = 1) or NACK (`k` = 0) it; the completion has written it to DATA
(42_data_phase.md R142). -/
def execReceiveByte (k : BitVec 1) (s : State) : Host.Outcome State Fault Refusal :=
  match s.stage with
  | .first => .next (((s.ctrlWrite (ctrlReceive k)).launch (.rx k)).hold (.wMain (.receiveByte k)))
  | .awaiting => .next s
  | .mainDone st =>
    match verdictReceiveByte st with
    | .success => .next (s.finish 0x00)
    | .nack => .next (s.failExit st)
    | .fail => .next (s.failExit st)
  | .stopDone _ _ => .fault .noSuchHold

end Sys2Proof.Machine
end

