-- ==== Sys2Proof/Machine/Dispatch.lean ====
section
/-! DEFINITION. One arm for each command: an engine step of that command. -/

namespace Sys2Proof.Machine

def exec (i : Instr) (s : State) : Host.Outcome State Fault Refusal :=
  match i with
  -- configuration (40_config.md)
  | .beginCmd => Sys2Proof.Machine.execBegin s
  | .endCmd => Sys2Proof.Machine.execEnd s
  | .setLowSpeed => Sys2Proof.Machine.execSetLowSpeed s
  | .setHighSpeed => Sys2Proof.Machine.execSetHighSpeed s
  -- bus conditions (41_bus_conditions.md)
  | .start => Sys2Proof.Machine.execStart s
  | .stop => Sys2Proof.Machine.execStop s
  -- data phases (42_data_phase.md)
  | .sendAddress a d => Sys2Proof.Machine.execSendAddress a d s
  | .sendByte d => Sys2Proof.Machine.execSendByte d s
  | .receiveByte k => Sys2Proof.Machine.execReceiveByte k s

end Sys2Proof.Machine
end

