-- ==== Sys2Proof/Machine/Environment.lean ====
section
/-! DEFINITION. The bus environment: which outcomes it may give (20_memory.md R61, R63), the always-acknowledging
environment (R64), and its step (R60). -/

namespace Sys2Proof.Machine

/-- The status code of a masked status. -/
def codeOfStatus (s : Byte) : StatusCode :=
  s.extractLsb' 3 5

/-- The protocol status sets, used only under `STATUS_DRAW = PROTOCOL` (20_memory.md R63; log 13). -/
def protocolStatuses : Phase → List Byte
  | .start => [0x08, 0x10, 0x38, 0x00]
  | .addr b => if b.getLsbD 0 = false then [0x18, 0x20, 0x38, 0x00] else [0x40, 0x48, 0x38, 0x00]
  | .tx _ => [0x28, 0x30, 0x38, 0x00]
  | .rx k => if k = 1 then [0x50, 0x38, 0x00] else [0x58, 0x38, 0x00]
  | .stop => [0xF8, 0x00]

/-- The environment may report this code for this phase (20_memory.md R61). -/
def drawAllows (d : StatusDraw) (p : Phase) (c : StatusCode) : Bool :=
  match d with
  | .any => true
  | .protocol => (protocolStatuses p).contains (statusOfCode c)

/-- The masked status ACK_ENV answers (20_memory.md R64). -/
def ackStatus (p : Phase) (txnOpen : Bool) : Byte :=
  match p with
  | .start => if txnOpen then 0x10 else 0x08
  | .addr b => if b.getLsbD 0 = false then 0x18 else 0x40
  | .tx _ => 0x28
  | .rx k => if k = 1 then 0x50 else 0x58
  | .stop => 0xF8

/-- The outcome of masked status `s` and byte `b`. -/
def outcomeOf (s b : Byte) : PhaseOutcome :=
  { code := codeOfStatus s, byte := b }

/-- ACK_ENV's outcome with the received byte the test names, and what remains of the named bytes; where none is
named the byte is a free draw (20_memory.md R64, R61; log 8). -/
def ackOutcome (p : Phase) (txnOpen : Bool) (rx : List Byte) (tick : Nat) : PhaseOutcome × Env :=
  match p.isRx, rx with
  | true, b :: rest => (outcomeOf (ackStatus p txnOpen) b, .ack rest)
  | true, [] => (outcomeOf (ackStatus p txnOpen) (Config.envByte tick), .ack [])
  | false, rx => (outcomeOf (ackStatus p txnOpen) 0x00, .ack rx)

/-- What the environment's policy answers for the pending phase, with the policy that remains; `none` where it
does not complete the phase now (20_memory.md R61, R62, R64; log 8). -/
def State.policyOutcome (s : State) (p : Phase) : Option (PhaseOutcome × Env) :=
  match s.env with
  | .ack rx => some (ackOutcome p s.txnOpen rx s.tick)
  | .script (o :: rest) => some (o, .script rest)
  | .script [] => none
  | .draw =>
    if Config.envCompletes s.tick then
      some ({ code := Config.envCode s.tick, byte := Config.envByte s.tick }, .draw)
    else none

/-- The model's own: the policy takes a value. -/
def State.setEnv (s : State) (e : Env) : State :=
  { s with env := e }

/-- The model's own: the counter of the free draws moves on. -/
def State.nextTick (s : State) : State :=
  { s with tick := s.tick + 1 }

/-- Phase completion with an outcome: enabled exactly when a phase is pending, and only with an outcome the
environment may give (20_memory.md R60, R61). Where it is not enabled or the
outcome is not allowed, nothing happens (log 12, log 17). -/
def State.completeWith (s : State) (o : PhaseOutcome) : State :=
  match s.pend with
  | none => s
  | some p => if drawAllows s.params.statusDraw p o.code then s.completePhase p o else s

/-- The environment's step by its policy. -/
def State.environmentStep (s : State) : State :=
  match s.pend with
  | none => s.nextTick
  | some p =>
    match s.policyOutcome p with
    | none => s.nextTick
    | some (o, e) => ((s.setEnv e).nextTick).completeWith o

end Sys2Proof.Machine
end

