-- ==== Sys2Proof/Machine/HostProgram.lean ====
section
/-! DEFINITION. Host programs: the assembler (30_encoding.md R89, R90), the composite writes (43_composite.md
R161, R162), and RunProgram, one host access a step (R160). -/

namespace Sys2Proof.Machine

/-- `WRITE a, d`: START, SEND_ADDRESS a W, SEND_BYTE d (43_composite.md R161). -/
def writeLines (a : BitVec 7) (d : Byte) : List Line :=
  [.command .start, .command (.sendAddress a 0), .command (.sendByte d)]

/-- `WRITE_REG a, reg, [b0, ...]`: WRITE a, reg, then a SEND_BYTE for each payload byte, then STOP
(43_composite.md R162). -/
def writeRegLines (a : BitVec 7) (reg : Byte) (payload : List Byte) : List Line :=
  writeLines a reg ++ payload.map (fun b => .command (.sendByte b)) ++ [.command .stop]

/-- The direction bit of a direction letter, `W` 0 and `R` 1 (30_encoding.md R89). -/
def directionBit (letter : Char) : BitVec 1 :=
  if letter = 'W' then 0 else 1

/-- SEND_ADDRESS with a ready-made SLA byte (30_encoding.md R89, `SEND_ADDRESS #b`). -/
def sendSlaCommand (b : Byte) : Instr :=
  .sendAddress (b.extractLsb' 1 7) (b.extractLsb' 0 1)

/-- The lines a well-formed line of assembly stands for (30_encoding.md R89, R90). -/
def asmExpansion : AsmLine → List Line
  | .beginLine => [.command .beginCmd]
  | .endLine => [.command .endCmd]
  | .setLowSpeed => [.command .setLowSpeed]
  | .setHighSpeed => [.command .setHighSpeed]
  | .start => [.command .start]
  | .stop => [.command .stop]
  | .sendAddress a dir => [.command (.sendAddress (BitVec.ofNat 7 a) (directionBit dir))]
  | .sendSla b => [.command (sendSlaCommand (BitVec.ofNat 8 b))]
  | .sendByte d => [.command (.sendByte (BitVec.ofNat 8 d))]
  | .receiveByte ack => [.command (.receiveByte (if ack then 1 else 0))]
  | .read r => [.read r]
  | .write a d => writeLines (BitVec.ofNat 7 a) (BitVec.ofNat 8 d)
  | .writeReg a reg payload =>
    writeRegLines (BitVec.ofNat 7 a) (BitVec.ofNat 8 reg) (payload.map fun b => BitVec.ofNat 8 b)

/-- The assembler: the host program of a listing, `none` where it refuses a line (30_encoding.md R89). Pseudo-
commands are replaced by their expansion before the run (43_composite.md R160). -/
def assemble : List AsmLine → Option (List Line)
  | [] => some []
  | l :: rest =>
    if l.wf then
      match assemble rest with
      | some more => some (asmExpansion l ++ more)
      | none => none
    else none

/-- The host's run takes a value. -/
def State.setHost (s : State) (h : HostRun) : State :=
  { s with host := h }

/-- The host starts a run of a program: `hpc <- 0; last <- 0x00` (43_composite.md R160). -/
def State.startRun (s : State) (lines : List Line) : State :=
  s.setHost { lines := lines, hpc := 0, last := 0x00, stage := .fetch }

/-- The host goes to a place in RunProgram. -/
def State.hostGoto (s : State) (g : HostStage) : State :=
  s.setHost { s.host with stage := g }

/-- The host goes to the next line (43_composite.md R160, `hpc <- hpc + 1`) with `last` at `r`. -/
def State.hostAdvance (s : State) (r : Byte) : State :=
  s.setHost { s.host with hpc := s.host.hpc + 1, last := r, stage := .fetch }

/-- The head of the loop: return `last` after the last line, make the host read of a READ line, or write ARG of a
command's line (43_composite.md R160). -/
def State.hostFetch (s : State) : State :=
  match s.host.lines[s.host.hpc]? with
  | none => s.hostGoto (.returned s.host.last)
  | some (.read r) => (s.noteRead (s.hostRead r)).hostAdvance s.host.last
  | some (.command c) => (s.hostWrite .arg c.argByte).hostGoto (.deliver c.op)

/-- The poll: once ENGSTAT.BUSY reads 0 the host goes on to read RESULT (43_composite.md R160). -/
def State.hostPoll (s : State) : State :=
  if engstatBusy (s.hostRead .engstat) then s else s.hostGoto .result

/-- RESULT is read: a non-zero result is returned at once, the short-circuit; zero goes to the next line
(43_composite.md R160). -/
def State.hostResult (s : State) : State :=
  if s.hostRead .result = 0x00 then s.hostAdvance (s.hostRead .result)
  else s.hostGoto (.returned (s.hostRead .result))

/-- The host takes the next access of its program, if one runs (43_composite.md R160; log 9). -/
def State.programStep (s : State) : State :=
  match s.host.stage with
  | .absent => s
  | .fetch => s.hostFetch
  | .deliver op => (s.hostWrite .cmd op).hostGoto .poll
  | .poll => s.hostPoll
  | .result => s.hostResult
  | .returned _ => s

end Sys2Proof.Machine
end

