-- ==== Sys2Proof/Machine/Turns.lean ====
section
/-! DEFINITION. Whose move is next, and what a move does (00_scope.md R5, R9). The list `turns` of State says
which agent moves; where it is empty a fixed order picks one (log 7). -/

namespace Sys2Proof.Machine

/-- The engine's turn: an engine step of the command in flight; with none in flight nothing happens
(10_state.md R30, log 12). -/
def State.engineTurn (s : State) : Host.Outcome State Fault Refusal :=
  match s.eng.command with
  | some c => exec c s
  | none => .next s

/-- Whether a turn is the host's reset. -/
def Turn.isReset : Turn → Bool
  | .engine => false
  | .complete _ => false
  | .environment => false
  | .program => false
  | .access _ => false
  | .run _ => false
  | .reset => true

/-- What a turn does in a state that is not quiescent. A turn `access` is allowed at any point, so the one host may make
accesses of its own between the accesses of its running program, between its ARG and its CMD write among them (DESIGN
CHOICE, log 21: 00_scope.md R7 and 43_composite.md R160 do not say). -/
def State.agentTurn (s : State) : Turn → Host.Outcome State Fault Refusal
  | .engine => s.engineTurn
  | .complete o => .next (s.completeWith o)
  | .environment => .next s.environmentStep
  | .program => .next s.programStep
  | .access a => .next (s.hostAccess a)
  | .run lines => .next (s.startRun lines)
  | .reset => .next s.resetAct

/-- A turn: reset at any time (70_reset_and_hazards.md R240, 60_exceptions.md R211); any other turn only where no
host fault has made the state quiescent (20_memory.md R52, 60_exceptions.md R209; log 6). -/
def State.takeTurn (s : State) (t : Turn) : Host.Outcome State Fault Refusal :=
  if s.quiescent && !t.isReset then .fault (.quiescent s.fault) else s.agentTurn t

/-- The model's own: the moves to come. -/
def State.setTurns (s : State) (ts : List Turn) : State :=
  { s with turns := ts }

/-- The turn where the list of moves is empty: the engine where its step is enabled, else the environment where
its policy completes the pending phase, else the host's program (log 7). -/
def State.eagerTurn (s : State) : Turn :=
  if s.engineReady then .engine
  else
    match s.pend with
    | none => .program
    | some p =>
      match s.policyOutcome p with
      | some _ => .environment
      | none => .program

/-- One step of the machine: the next move of the list, or the eager one where the list is empty. -/
def State.runTurn (s : State) : Host.Outcome State Fault Refusal :=
  match s.turns with
  | t :: rest => (s.setTurns rest).takeTurn t
  | [] => s.nextTick.takeTurn s.nextTick.eagerTurn

/-- The machine with the command of a table word accepted and the engine to move: the engine's next step is the
first step of its rule (log 1). A word of at most 16 bits that is no command is put to ARG and the CMD port instead, where
the issue checks fault it (60_exceptions.md R210). A wider word is no command word at all (30_encoding.md R80), and nothing
is placed for it (DESIGN CHOICE, log 1). -/
def State.placeWord (s : State) (nbits w : Nat) : State :=
  match decodeTableWord nbits w with
  | some i => { s with eng := .issued i, turns := .engine :: s.turns, quiescent := false }
  | none =>
    if nbits ≤ 16 then
      { s with
        arg := BitVec.ofNat 8 (w % 2 ^ nbits)
        turns := .access (.write (s.params.base + 5) 1 (BitVec.ofNat 8 (w % 2 ^ nbits / 256))) :: s.turns
        quiescent := false }
    else s

end Sys2Proof.Machine
end

