-- ==== Sys2Proof/Machine/Step.lean ====
section
/-! DEFINITION. One step of the machine, and placing an instruction where the next step runs it. -/

namespace Sys2Proof.Machine

/-- One step: one move of one agent (00_scope.md R5, R9). -/
def step (s : State) : Host.Outcome State Fault Refusal :=
  s.runTurn

/-- `s` with the instruction of a table word latched in the engine and the engine's turn next; a word that is no
command is treated as `State.placeWord` says (log 1). -/
def State.withFetchWord (s : State) (nbits w : Nat) : State :=
  s.placeWord nbits w

end Sys2Proof.Machine
end

