-- ==== Sys2Proof/Machine/Assembler.lean ====
section
/-! DEFINITION. Reading a line of assembly text (30_encoding.md R89, R90; 43_composite.md R160): one line of a program
at a time, `;` starting a comment. The numbers are written as 00_scope.md section 4 writes them (log 20). -/

namespace Sys2Proof.Machine

/-- A piece of a line: a word of letters, digits and underscores, or one mark of punctuation. -/
inductive Token where
  | word (cs : List Char)
  | mark (c : Char)
deriving DecidableEq, Repr

/-- The marks the syntax uses: `,`, `#`, `[` and `]`. -/
def isMark (c : Char) : Bool :=
  decide (c = ',') || decide (c = '#') || decide (c = '[') || decide (c = ']')

/-- Space and tab separate words. -/
def isBlank (c : Char) : Bool :=
  decide (c = ' ') || decide (c = '\t')

/-- The word read so far, if it is not empty, before the pieces that follow. -/
def endWord (soFar : List Char) (rest : List Token) : List Token :=
  match soFar with
  | [] => rest
  | c :: cs => .word (c :: cs).reverse :: rest

/-- The pieces of a text with no comment; `soFar` is the word being read, last letter first. -/
def tokens : (soFar : List Char) → List Char → List Token
  | soFar, [] => endWord soFar []
  | soFar, c :: cs =>
    if isBlank c then endWord soFar (tokens [] cs)
    else if isMark c then endWord soFar (.mark c :: tokens [] cs)
    else tokens (c :: soFar) cs

/-- A line without its comment (30_encoding.md R89, "with `;` starting a comment"). -/
def stripComment (line : List Char) : List Char :=
  line.takeWhile fun c => decide (c ≠ ';')

/-- The value of a digit in a base up to 16. -/
def digitValue (base : Nat) (c : Char) : Option Nat :=
  let v :=
    if '0' ≤ c ∧ c ≤ '9' then some (c.toNat - '0'.toNat)
    else if 'a' ≤ c ∧ c ≤ 'f' then some (c.toNat - 'a'.toNat + 10)
    else if 'A' ≤ c ∧ c ≤ 'F' then some (c.toNat - 'A'.toNat + 10)
    else none
  match v with
  | some n => if n < base then some n else none
  | none => none

/-- The number a row of digits stands for, from `sum` on. -/
def digits (base : Nat) : (sum : Nat) → List Char → Option Nat
  | sum, [] => some sum
  | sum, c :: cs =>
    match digitValue base c with
    | some d => digits base (sum * base + d) cs
    | none => none

/-- A number: `0xNN` hexadecimal, `0bNNNN` binary, decimal otherwise (00_scope.md section 4; log 20). -/
def number : List Char → Option Nat
  | [] => none
  | '0' :: 'x' :: c :: cs => digits 16 0 (c :: cs)
  | '0' :: 'b' :: c :: cs => digits 2 0 (c :: cs)
  | c :: cs => digits 10 0 (c :: cs)

/-- The register a `READ` line names (10_state.md R20, 43_composite.md R160). -/
def registerNamed (w : List Char) : Option Reg :=
  if w = ['C', 'T', 'R', 'L'] then some .ctrl
  else if w = ['S', 'T', 'A', 'T', 'U', 'S'] then some .status
  else if w = ['D', 'A', 'T', 'A'] then some .data
  else if w = ['B', 'I', 'T', 'R', 'A', 'T', 'E'] then some .bitrate
  else if w = ['A', 'R', 'G'] then some .arg
  else if w = ['C', 'M', 'D'] then some .cmd
  else if w = ['R', 'E', 'S', 'U', 'L', 'T'] then some .result
  else if w = ['E', 'N', 'G', 'S', 'T', 'A', 'T'] then some .engstat
  else none

/-- The numbers of a payload after its `[`, up to its `]` at the end of the line (30_encoding.md R90). -/
def payloadNumbers : List Token → Option (List Nat)
  | [.mark ']'] => some []
  | [.word w, .mark ']'] =>
    match number w with
    | some n => some [n]
    | none => none
  | .word w :: .mark ',' :: rest =>
    match number w, payloadNumbers rest with
    | some n, some (m :: ns) => some (n :: m :: ns)
    | _, _ => none
  | _ => none

/-- A command with no operand, by its mnemonic. -/
def plainLine (w : List Char) : Option AsmLine :=
  if w = ['B', 'E', 'G', 'I', 'N'] then some .beginLine
  else if w = ['E', 'N', 'D'] then some .endLine
  else if w = ['S', 'E', 'T', '_', 'L', 'O', 'W', '_', 'S', 'P', 'E', 'E', 'D'] then some .setLowSpeed
  else if w = ['S', 'E', 'T', '_', 'H', 'I', 'G', 'H', '_', 'S', 'P', 'E', 'E', 'D'] then some .setHighSpeed
  else if w = ['S', 'T', 'A', 'R', 'T'] then some .start
  else if w = ['S', 'T', 'O', 'P'] then some .stop
  else none

/-- A line with one operand, by its mnemonic. -/
def operandLine (w x : List Char) : Option AsmLine :=
  if w = ['S', 'E', 'N', 'D', '_', 'B', 'Y', 'T', 'E'] then (number x).map .sendByte
  else if w = ['R', 'E', 'C', 'E', 'I', 'V', 'E', '_', 'B', 'Y', 'T', 'E'] then
    if x = ['A', 'C', 'K'] then some (.receiveByte true)
    else if x = ['N', 'A', 'C', 'K'] then some (.receiveByte false)
    else none
  else if w = ['R', 'E', 'A', 'D'] then (registerNamed x).map .read
  else none

/-- A line with two operands, by its mnemonic. A direction is one letter; `AsmLine.wf` refuses one other than `W` or
`R`. -/
def twoOperandLine (w x y : List Char) : Option AsmLine :=
  if w = ['S', 'E', 'N', 'D', '_', 'A', 'D', 'D', 'R', 'E', 'S', 'S'] then
    match y with
    | [c] => (number x).map fun a => .sendAddress a c
    | _ => none
  else if w = ['W', 'R', 'I', 'T', 'E'] then
    match number x, number y with
    | some a, some d => some (.write a d)
    | _, _ => none
  else none

/-- The line of assembly a row of pieces stands for, `none` where it is no line of the syntax (30_encoding.md R89,
R90). -/
def lineOfTokens : List Token → Option AsmLine
  | [.word w] => plainLine w
  | [.word w, .word x] => operandLine w x
  | [.word w, .mark '#', .word x] =>
    if w = ['S', 'E', 'N', 'D', '_', 'A', 'D', 'D', 'R', 'E', 'S', 'S'] then (number x).map .sendSla else none
  | [.word w, .word x, .mark ',', .word y] => twoOperandLine w x y
  | .word w :: .word x :: .mark ',' :: .word y :: .mark ',' :: .mark '[' :: rest =>
    if w = ['W', 'R', 'I', 'T', 'E', '_', 'R', 'E', 'G'] then
      match number x, number y, payloadNumbers rest with
      | some a, some r, some ns => some (.writeReg a r ns)
      | _, _, _ => none
    else none
  | _ => none

/-- Reading one line of text (30_encoding.md R89). -/
def parseLine (line : List Char) : Option AsmLine :=
  lineOfTokens (tokens [] (stripComment line))

/-- The lines of a listing that hold more than blanks and a comment, read in order; `none` where one of them is no line
of the syntax. -/
def parseListing : List (List Char) → Option (List AsmLine)
  | [] => some []
  | l :: rest =>
    if (tokens [] (stripComment l)).isEmpty then parseListing rest
    else
      match parseLine l, parseListing rest with
      | some a, some more => some (a :: more)
      | _, _ => none

/-- The host program of a listing in text, `none` where the assembler refuses it (30_encoding.md R89, R90). -/
def assembleText (listing : List (List Char)) : Option (List Line) :=
  match parseListing listing with
  | some ls => assemble ls
  | none => none

end Sys2Proof.Machine
end

