-- ==== Sys2Proof/Safety.lean ====
section
/-! DEFINITION. What a safe run is, in the terms the statements use: the invariant of the machine, the final states
of a host program's run, and the order of the events of a trace. -/

namespace Sys2Proof.Machine

/-! ### Final states (10_state.md R33, 43_composite.md R164) -/

/-- No host fault has been recorded. -/
def State.faultFree (s : State) : Prop :=
  s.fault = none

/-- A host program's run has ended in a final state with result `r`: RunProgram has returned and no fault was
recorded (43_composite.md R164). -/
def State.finalWith (s : State) (r : Byte) : Prop :=
  s.host.stage = .returned r ∧ s.faultFree

/-! ### What two states share -/

/-- The registers and the hidden state of the block are the same (10_state.md R20 to R32). -/
structure State.SameHardware (s t : State) : Prop where
  ctrl : t.ctrl = s.ctrl
  status : t.status = s.status
  data : t.data = s.data
  bitrate : t.bitrate = s.bitrate
  arg : t.arg = s.arg
  result : t.result = s.result
  speedSel : t.speedSel = s.speedSel
  eng : t.eng = s.eng
  pend : t.pend = s.pend

/-- The block is the same, its ghost state and parameters included: only the host's run and its reads, the
environment's policy, the moves to come and the draw counter may differ. -/
structure State.SameBlock (s t : State) : Prop extends State.SameHardware s t where
  txnOpen : t.txnOpen = s.txnOpen
  fault : t.fault = s.fault
  trace : t.trace = s.trace
  params : t.params = s.params
  quiescent : t.quiescent = s.quiescent

/-! ### The invariant -/

/-- The W_STOP states of 10_state.md R30: STOP with nothing saved, or a send with the NACK status it reports
(60_exceptions.md R205). -/
def stopOrigin : Instr → Option Byte → Bool
  | .stop, none => true
  | .sendAddress _ _, some st => decide (st = 0x20) || decide (st = 0x48)
  | .sendByte _, some st => decide (st = 0x30)
  | _, _ => false

/-- The engine state and the pending phase fit: nothing pends while IDLE or ISSUED; in a hold the phase of the
hold pends or has completed (10_state.md R30, R32). -/
def engPendOk : Eng → Option Phase → Bool
  | .idle, p => decide (p = none)
  | .issued _, p => decide (p = none)
  | .wMain c, p => (mainPhase c).isSome && (decide (p = none) || decide (p = mainPhase c))
  | .wStop c saved, p => stopOrigin c saved && (decide (p = none) || decide (p = some .stop))

/-- The engine holds in an Await(), its phase pending or just completed. -/
def Eng.inHold : Eng → Bool
  | .idle => false
  | .issued _ => false
  | .wMain _ => true
  | .wStop _ _ => true

/-- CTRL while the phase of a hold pends: the fields the command wrote, with INT cleared by the write; 0x00 stands
where there is no hold (41_bus_conditions.md R120, R121; 42_data_phase.md R140 to R142; 20_memory.md R58). -/
def pendingCtrl : Eng → Byte
  | .idle => 0x00
  | .issued _ => 0x00
  | .wMain .start => 0x24
  | .wMain (.receiveByte k) => if k = 1 then 0x44 else 0x04
  | .wMain _ => 0x04
  | .wStop _ _ => 0x14

/-- The invariant of the machine. -/
structure State.Inv (s : State) : Prop where
  /-- CTRL bits 3, 1 and 0 are reserved and read 0 (10_state.md R21) -/
  ctrlReserved : s.ctrl &&& 0x0B = 0
  /-- STATUS[2] is reserved and reads 0, and PS is never non-zero (10_state.md R22) -/
  statusLow : s.status &&& 0x07 = 0
  /-- while disabled, CTRL is clear, nothing pends, no transaction is open, and only BEGIN can be in flight
  (60_exceptions.md R210) -/
  disabledCleared : s.enabled = false →
    s.ctrl = 0 ∧ s.pend = none ∧ s.txnOpen = false ∧ (s.eng = .idle ∨ s.eng = .issued .beginCmd)
  /-- the engine state and the pending phase fit (10_state.md R30, R32) -/
  engPend : engPendOk s.eng s.pend = true
  /-- in a hold CTRL has the fields the command wrote; INT is 0 while the phase pends and 1 once it has completed
  (20_memory.md R58, R60) -/
  holdCtrl : s.eng.inHold = true →
    s.ctrl = if s.pend = none then ctrlAfterCompletion (pendingCtrl s.eng) else pendingCtrl s.eng
  /-- CTRL.STO is 1 only while a STOP phase pends (10_state.md R21) -/
  stoPending : ctrlSto s.ctrl = true → s.pend = some .stop
  /-- while an address or data byte is being sent, DATA holds it (20_memory.md R60) -/
  dataOnBus : ∀ b, s.pend = some (.addr b) ∨ s.pend = some (.tx b) → s.data = b
  /-- a data-phase command is in flight only inside a transaction (60_exceptions.md R210) -/
  dataOpen : ∀ c, s.eng.command = some c → isDataPhase c = true → s.txnOpen = true
  /-- a reconfiguration is in flight only outside a transaction (60_exceptions.md R210) -/
  reconfigClosed : ∀ c, s.eng.command = some c → isReconfiguration c = true → s.txnOpen = false
  /-- RESULT is 0xFF or a multiple of 8 (60_exceptions.md R202) -/
  resultForm : s.result = 0xFF ∨ s.result &&& 0x07 = 0
  /-- a non-zero RESULT means that no transaction is open (60_exceptions.md R208) -/
  failedClosed : s.result ≠ 0 → s.txnOpen = false
  /-- BITRATE is 0x00, BR_LOW or BR_HIGH (10_state.md R24) -/
  bitrateLegal : s.bitrate = 0 ∨ s.bitrate = s.params.bitRateOf .low ∨ s.bitrate = s.params.bitRateOf .high
  /-- while enabled, BITRATE is the constant SPEED_SEL names (40_config.md R101, R103, R104) -/
  bitrateSelected : s.enabled = true → s.bitrate = s.params.bitRateOf s.speedSel
  /-- a quiescent state has a fault recorded (20_memory.md R52) -/
  quiescentFault : s.quiescent = true → s.fault ≠ none

/-! ### The order of a trace's events (20_memory.md R66, 60_exceptions.md R208) -/

/-- What a reader of a trace keeps of its past: the phase pending, whether a command is in flight, how many STOP
phases and how many recoveries that command has had, and whether its last event was `CW(0x00)`. -/
structure Replay where
  pend : Option Phase
  busy : Bool
  stops : Nat
  recoveries : Nat
  off : Bool
deriving DecidableEq, Repr

/-- Between commands. -/
def Replay.rest : Replay :=
  { pend := none, busy := false, stops := 0, recoveries := 0, off := false }

/-- Reading one event; `none` where the event is out of order. A command is issued only between commands. The
engine writes, launches and finishes only within a command and with no phase pending. A phase completes only
while it pends. A STOP phase comes at most once in a command and not after a recovery; `CW(0x44)` right after
`CW(0x00)` is a recovery, at most one in a command; a non-zero result needs a STOP phase or a recovery before it
(60_exceptions.md R208). -/
def Replay.read (r : Replay) : Event → Option Replay
  | .issue _ _ =>
    if r.busy = false ∧ r.pend = none then
      some { pend := none, busy := true, stops := 0, recoveries := 0, off := false }
    else none
  | .cw v =>
    if r.busy = true ∧ r.pend = none ∧ (r.off = true ∧ v = 0x44 → r.recoveries = 0) then
      some { r with
        recoveries := if r.off = true ∧ v = 0x44 then r.recoveries + 1 else r.recoveries
        off := decide (v = 0x00) }
    else none
  | .dw _ => if r.busy = true ∧ r.pend = none then some { r with off := false } else none
  | .ph p =>
    if r.busy = true ∧ r.pend = none ∧ (p = .stop → r.stops = 0 ∧ r.recoveries = 0) then
      some { r with pend := some p, stops := if p = .stop then r.stops + 1 else r.stops, off := false }
    else none
  | .oc _ b =>
    match r.pend with
    | some p => if b.isSome = p.isRx then some { r with pend := none, off := false } else none
    | none => none
  | .res v =>
    if r.busy = true ∧ r.pend = none ∧ (v ≠ 0x00 → r.stops + r.recoveries ≠ 0) then some Replay.rest else none
  | .rst => some Replay.rest

/-- Reading a trace from a point on. -/
def Replay.readAll (r : Replay) : List Event → Option Replay
  | [] => some r
  | e :: rest =>
    match r.read e with
    | some r' => r'.readAll rest
    | none => none

/-- The STOP phases the command in flight has launched (10_state.md R30). -/
def Eng.stops : Eng → Nat
  | .idle => 0
  | .issued _ => 0
  | .wMain _ => 0
  | .wStop _ _ => 1

/-- The trace is in order, and reading it ends at the pending phase and the engine state of the machine. Between
two steps the command in flight has had no recovery, since every recovery ends its command (60_exceptions.md
R208). -/
def State.TraceInOrder (s : State) : Prop :=
  Replay.rest.readAll s.trace =
    some { pend := s.pend, busy := s.busy, stops := s.eng.stops, recoveries := 0, off := false }

/-- Every launch in a list of events comes right after a CTRL write with INT = 1 and EN = 1 (20_memory.md R59);
`ready` says whether such a write came just before the list. -/
def launchesFollowWrites : (ready : Bool) → List Event → Bool
  | _, [] => true
  | ready, .ph _ :: rest => ready && launchesFollowWrites false rest
  | _, .cw v :: rest => launchesFollowWrites (ctrlInt v && ctrlEn v) rest
  | _, .issue _ _ :: rest => launchesFollowWrites false rest
  | _, .dw _ :: rest => launchesFollowWrites false rest
  | _, .oc _ _ :: rest => launchesFollowWrites false rest
  | _, .res _ :: rest => launchesFollowWrites false rest
  | _, .rst :: rest => launchesFollowWrites false rest

/-- The phases launched in a trace, in order (20_memory.md R65). -/
def phasesOf : List Event → List Phase
  | [] => []
  | .ph p :: rest => p :: phasesOf rest
  | _ :: rest => phasesOf rest

end Sys2Proof.Machine
end

