-- ==== Sys2Proof/Certificates/Slice0/Obligations.lean ====
section
/-! DEFINITION. The statements for the provers. Each docstring names the rule of spec/ it formalises; OBLIGATIONS.json
lists them with their quotes. A result of a command is stated as the whole next state, so it is at once the
command's completion, its result and its frame: a field that is not named keeps its value.

Three of the model's own fields stand in the statements and are not the spec's: `turns` (which agent moves next, log 7),
`quiescent` (the record of "The faulted state is quiescent", 20_memory.md R52, log 6) and `reads` (the bytes the host has
read, log 9). -/

open Sys2Proof Sys2Proof.Machine

/-! ### Encoding (30_encoding.md) -/

/-- Words written out from the patterns of 30_encoding.md R82 and the tables L1.1 and VF3 to VF5 of
95_test_vectors.md decode to what they stand for. -/
def Obligations.WordsOfTheOpcodeMapDecode : Prop :=
  decode 0b0000000100000000 = .command .beginCmd ∧
  decode 0b0000001000000000 = .command .endCmd ∧
  decode 0b0000001100000000 = .command .setLowSpeed ∧
  decode 0b0000010000000000 = .command .setHighSpeed ∧
  decode 0b0001000000000000 = .command .start ∧
  decode 0b0001000100000000 = .command .stop ∧
  decode 0b0001001010100100 = .command (.sendAddress 0x52 0) ∧
  decode 0b0001001010100101 = .command (.sendAddress 0x52 1) ∧
  decode 0b0001001111001010 = .command (.sendByte 0xCA) ∧
  decode 0b0001010000000001 = .command (.receiveByte 1) ∧
  decode 0b0001010000000000 = .command (.receiveByte 0) ∧
  decode 0x0101 = .illegal .reservedArgBits ∧
  decode 0x1402 = .illegal .reservedArgBits ∧
  decode 0x1500 = .illegal .reservedOpcode

/-- Decoding the encoding of a command gives the command, with every operand at every value (30_encoding.md R80 to
R85, R88). -/
def Obligations.DecodeOfEncodeIsTheCommand : Prop :=
  ∀ i : Instr, decode (encode i) = .command i

/-- A word that decodes to a command is that command's only word (30_encoding.md R82, R87). -/
def Obligations.EncodeOfDecodeIsTheWord : Prop :=
  ∀ (w : CommandWord) (i : Instr), decode w = .command i → encode i = w

/-- 30_encoding.md R88: the decoder answers the command of a row that matches, ILLEGAL where none does, and at most
one row matches. -/
def Obligations.DecodeFollowsTheOneMatchingRow : Prop :=
  (∀ (w : CommandWord) (r : OpRow), w &&& r.mask = r.pattern → decode w = .command (r.command w)) ∧
  (∀ w : CommandWord, (∀ r : OpRow, w &&& r.mask ≠ r.pattern) → ∃ why, decode w = .illegal why) ∧
  (∀ (w : CommandWord) (r q : OpRow), w &&& r.mask = r.pattern → w &&& q.mask = q.pattern → r = q)

/-- 30_encoding.md R86: which words are illegal, and that issuing one raises the fault ILLEGAL (`quiescent`: log 6). -/
def Obligations.IllegalWordsFaultAtIssue : Prop :=
  (∀ op arg : Byte, (∃ why, decode (commandWord op arg) = .illegal why) ↔
    ((op = 0x00 ∨ (0x05 ≤ op.toNat ∧ op.toNat ≤ 0x0F) ∨ 0x15 ≤ op.toNat) ∨
      ((op = 0x01 ∨ op = 0x02 ∨ op = 0x03 ∨ op = 0x04 ∨ op = 0x10 ∨ op = 0x11) ∧ arg ≠ 0x00) ∨
      (op = 0x14 ∧ arg.extractLsb' 1 7 ≠ 0))) ∧
  (∀ (s : State) (op : Byte) (why : IllegalWord), s.eng = .idle →
    decode (commandWord op s.arg) = .illegal why →
    s.issue op = { s with fault := some .illegal, quiescent := true })

/-- 30_encoding.md R83: the SEND_ADDRESS operand is `(a << 1) | d`, with `a = ARG[7:1]` and `d = ARG[0]`, and it is
the byte transmitted. -/
def Obligations.SendAddressOperandIsTheSlaByte : Prop :=
  ∀ (a : BitVec 7) (d : BitVec 1),
    (Instr.sendAddress a d).argByte = (a.setWidth 8 <<< 1) ||| d.setWidth 8 ∧
    ((Instr.sendAddress a d).argByte).toNat = 2 * a.toNat + d.toNat ∧
    ((Instr.sendAddress a d).argByte).extractLsb' 1 7 = a ∧
    ((Instr.sendAddress a d).argByte).extractLsb' 0 1 = d ∧
    mainPhase (.sendAddress a d) = some (.addr (Instr.sendAddress a d).argByte)

/-- 30_encoding.md R89: the words of the assembly syntax, what the assembler refuses, and that a comment after `;` is no
part of a line. -/
def Obligations.AssemblerWordsAndRefusals : Prop :=
  (encode .beginCmd = 0x0100 ∧ assemble [.beginLine] = some [.command .beginCmd]) ∧
  (encode .endCmd = 0x0200 ∧ assemble [.endLine] = some [.command .endCmd]) ∧
  (encode .setLowSpeed = 0x0300 ∧ assemble [.setLowSpeed] = some [.command .setLowSpeed]) ∧
  (encode .setHighSpeed = 0x0400 ∧ assemble [.setHighSpeed] = some [.command .setHighSpeed]) ∧
  (encode .start = 0x1000 ∧ assemble [.start] = some [.command .start]) ∧
  (encode .stop = 0x1100 ∧ assemble [.stop] = some [.command .stop]) ∧
  (∀ a : Nat, a ≤ 127 →
    (∃ i, assemble [.sendAddress a 'W'] = some [.command i] ∧ (encode i).toNat = 0x1200 + 2 * a) ∧
    (∃ i, assemble [.sendAddress a 'R'] = some [.command i] ∧ (encode i).toNat = 0x1200 + 2 * a + 1)) ∧
  (∀ b : Nat, b ≤ 255 →
    (∃ i, assemble [.sendSla b] = some [.command i] ∧ (encode i).toNat = 0x1200 + b) ∧
    (∃ i, assemble [.sendByte b] = some [.command i] ∧ (encode i).toNat = 0x1300 + b)) ∧
  (∃ i, assemble [.receiveByte true] = some [.command i] ∧ encode i = 0x1401) ∧
  (∃ i, assemble [.receiveByte false] = some [.command i] ∧ encode i = 0x1400) ∧
  (∀ (a : Nat) (dir : Char), 127 < a ∨ (dir ≠ 'W' ∧ dir ≠ 'R') → assemble [.sendAddress a dir] = none) ∧
  (∀ b : Nat, 255 < b → assemble [.sendSla b] = none ∧ assemble [.sendByte b] = none) ∧
  (∀ line comment : List Char, parseLine (line ++ ';' :: comment) = parseLine line)

/-! ### State and reset (10_state.md, 70_reset_and_hazards.md) -/

/-- 10_state.md R37, 70_reset_and_hazards.md R240: a reset, in any state, gives every register and hidden state its
value, abandons the command and the phase in flight, writes no RES, keeps the ghost fault and appends RST; at the start
of a run there is no fault. -/
def Obligations.ResetRestoresEveryRegister : Prop :=
  (∀ (s : State) (rest : List Turn), s.turns = .reset :: rest →
    ∃ t, step s = .next t ∧
      t.ctrl = 0x00 ∧ t.status = 0xF8 ∧ t.data = 0xFF ∧ t.bitrate = 0x00 ∧ t.arg = 0x00 ∧ t.result = 0x00 ∧
      t.engstat = 0x00 ∧ t.speedSel = .low ∧ t.eng = .idle ∧ t.pend = none ∧ t.txnOpen = false ∧
      t.fault = s.fault ∧ t.trace = s.trace ++ [.rst] ∧ t.params = s.params) ∧
  State.reset.fault = none

/-- The start of a model run: the values of 10_state.md R37, no fault (R33) and an empty trace (R34). That the run's
first state is `State.reset` with no RST in its trace is the model's reading (log 10). -/
def Obligations.StartOfRunHasTheResetValues : Prop :=
  State.reset.ctrl = 0x00 ∧ State.reset.status = 0xF8 ∧ State.reset.data = 0xFF ∧ State.reset.bitrate = 0x00 ∧
  State.reset.arg = 0x00 ∧ State.reset.result = 0x00 ∧ State.reset.engstat = 0x00 ∧
  State.reset.speedSel = .low ∧ State.reset.eng = .idle ∧ State.reset.pend = none ∧
  State.reset.txnOpen = false ∧ State.reset.fault = none ∧ State.reset.trace = [] ∧
  State.reset.params.statusDraw = .any

/-- 10_state.md R28: ENGSTAT reads BUSY in bit 0, SPD in bit 1 and 0 elsewhere; BUSY goes from 0 to 1 only where a command
is issued, and from 1 to 0 only where its Finish has run or at reset; the host cannot write ENGSTAT (a write
faults; `quiescent`: log 6); it resets to 0x00. -/
def Obligations.EngstatReadsBusyAndSpeed : Prop :=
  (∀ s : State, (s.engstat.getLsbD 0 = true ↔ s.eng ≠ .idle) ∧ (s.engstat.getLsbD 1 = true ↔ s.speedSel = .high) ∧
    s.engstat &&& 0xFC = 0x00) ∧
  (∀ (s : State) (op : Byte) (c : Instr), ((s.accept op c).engstat).getLsbD 0 = true) ∧
  (∀ (s : State) (r : Byte), ((s.finish r).engstat).getLsbD 0 = false) ∧
  (∀ s t : State, step s = .next t → s.engstat.getLsbD 0 = false → t.engstat.getLsbD 0 = true →
    ∃ op arg, t.trace = s.trace ++ [.issue op arg]) ∧
  (∀ s t : State, step s = .next t → s.engstat.getLsbD 0 = true → t.engstat.getLsbD 0 = false →
    (∃ events, t.trace = s.trace ++ events ++ [.res t.result]) ∨ t.trace = s.trace ++ [.rst]) ∧
  (∀ (s : State) (v : Byte), s.hostWrite .engstat v = { s with fault := some .hostAccess, quiescent := true }) ∧
  State.reset.engstat = 0x00

/-! ### The host window (20_memory.md R51 to R53) -/

/-- 20_memory.md R53: a byte read at an offset returns the register's current value, CMD reads 0x00, reserved bits
read 0, and the block does not change; the value is noted among the host's reads (log 9). -/
def Obligations.HostReadsHaveNoSideEffect : Prop :=
  (∀ (s : State) (rest : List Turn) (off : Nat) (v : Byte), s.quiescent = false →
    s.turns = .access (.read (s.params.base + off) 1) :: rest →
    [s.ctrl, s.status, s.data, s.bitrate, s.arg, 0x00, s.result, s.engstat][off]? = some v →
    step s = .next { s with turns := rest, reads := s.reads ++ [v] }) ∧
  (∀ s : State, s.Inv → s.ctrl &&& 0x0B = 0x00 ∧ s.status &&& 0x04 = 0x00 ∧ s.engstat &&& 0xFC = 0x00)

/-- 20_memory.md R52: a byte write to ARG is taken in every engine state; a byte write to CMD issues the command word
of the written byte and ARG, or raises the first fault of the checks; any other register is read-only and the
write raises HOST_ACCESS. A raised fault issues no command and changes no register (`quiescent`: log 6). -/
def Obligations.HostWritesReachArgAndCmdOnly : Prop :=
  ∀ (s : State) (rest : List Turn) (off : Nat) (v : Byte), s.quiescent = false →
    s.turns = .access (.write (s.params.base + off) 1 v) :: rest →
    (off = 4 → step s = .next { s with turns := rest, arg := v }) ∧
    (off = 5 →
      (∀ c, issueCheck s v = .accept c →
        step s = .next { s with turns := rest, trace := s.trace ++ [.issue v s.arg], eng := .issued c }) ∧
      (∀ r, issueCheck s v = .reject r →
        step s = .next { s with turns := rest, fault := some r, quiescent := true })) ∧
    (off < 8 → off ≠ 4 → off ≠ 5 →
      step s = .next { s with turns := rest, fault := some .hostAccess, quiescent := true })

/-- 20_memory.md R51: an access of any other width that touches the window, one that straddles its edge among them,
raises HOST_ACCESS (`quiescent`: log 6). An access that does not touch the window is not this block's (R50); that it
changes nothing is the model's choice (log 19). -/
def Obligations.WideAccessesFault : Prop :=
  (∀ (s : State) (rest : List Turn) (a : Access), s.quiescent = false → s.turns = .access a :: rest →
    a.width ≠ 0 → a.width ≠ 1 → a.addr < s.params.base + 8 → s.params.base < a.addr + a.width →
    step s = .next { s with turns := rest, fault := some .hostAccess, quiescent := true }) ∧
  (∀ (s : State) (rest : List Turn) (a : Access), s.quiescent = false → s.turns = .access a :: rest →
    (s.params.base + 8 ≤ a.addr ∨ a.addr + a.width ≤ s.params.base) →
    step s = .next { s with turns := rest })

/-! ### Host faults (60_exceptions.md R209, R210; 10_state.md R33) -/

/-- 60_exceptions.md R210: the issue checks in their order, and that checks 3 and 4 never both apply in a state of a
run (`State.Inv`). -/
def Obligations.IssueChecksComeInOrder : Prop :=
  (∀ (s : State) (op : Byte),
    (s.eng ≠ .idle → issueCheck s op = .reject .busy) ∧
    (s.eng = .idle → (∀ why, decode (commandWord op s.arg) = .illegal why → issueCheck s op = .reject .illegal) ∧
      (∀ c, decode (commandWord op s.arg) = .command c →
        (c ≠ .beginCmd → s.enabled = false → issueCheck s op = .reject .disabled) ∧
        ((c = .beginCmd ∨ s.enabled = true) →
          ((c = .beginCmd ∨ c = .setLowSpeed ∨ c = .setHighSpeed) → s.txnOpen = true →
            issueCheck s op = .reject .midTxn) ∧
          (((∃ a d, c = .sendAddress a d) ∨ (∃ b, c = .sendByte b) ∨ ∃ k, c = .receiveByte k) →
            s.txnOpen = false → issueCheck s op = .reject .noTxn) ∧
          ((c = .beginCmd ∨ c = .setLowSpeed ∨ c = .setHighSpeed) → s.txnOpen = false →
            issueCheck s op = .accept c) ∧
          (((∃ a d, c = .sendAddress a d) ∨ (∃ b, c = .sendByte b) ∨ ∃ k, c = .receiveByte k) →
            s.txnOpen = true → issueCheck s op = .accept c) ∧
          ((c = .endCmd ∨ c = .start ∨ c = .stop) → issueCheck s op = .accept c))))) ∧
  (∀ s : State, s.Inv → s.enabled = false → s.txnOpen = false)

/-- 10_state.md R33: a recorded fault is never cleared, not by reset and not by any later step, and a state with a
fault is never final. -/
def Obligations.FaultsAreNeverCleared : Prop :=
  (∀ s t : State, s.fault ≠ none → step s = .next t → t.fault ≠ none) ∧
  (∀ (s : State) (rest : List Turn), s.turns = .reset :: rest → ∃ t, step s = .next t ∧ t.fault = s.fault) ∧
  (∀ (s : State) (r : Byte), s.fault ≠ none → ¬ s.finalWith r) ∧
  State.reset.fault = none

/-- The model's choice (log 6), from "The faulted state is quiescent" (20_memory.md R52): no agent but a reset moves a
quiescent state. -/
def Obligations.QuiescentStatesStopUntilReset : Prop :=
  ∀ (s : State) (k : Turn) (rest : List Turn), s.quiescent = true → s.turns = k :: rest → k ≠ .reset →
    step s = .fault (.quiescent s.fault)

/-- 70_reset_and_hazards.md R248: END and reset disable the block; while it is disabled only BEGIN is allowed, and any
other command is Fault(DISABLED) (`quiescent`: log 6). -/
def Obligations.DisabledBlockTakesOnlyBegin : Prop :=
  (∀ s t : State, s.eng = .issued .endCmd → exec .endCmd s = .next t → t.enabled = false ∧ t.eng = .idle) ∧
  (∀ s : State, s.resetAct.enabled = false ∧ s.resetAct.eng = .idle) ∧
  (∀ (s : State) (rest : List Turn) (op : Byte) (c : Instr), s.Inv → s.eng = .idle → s.enabled = false →
    s.quiescent = false → decode (commandWord op s.arg) = .command c →
    s.turns = .access (.write (s.params.base + 5) 1 op) :: rest →
    (c ≠ .beginCmd → step s = .next { s with turns := rest, fault := some .disabled, quiescent := true }) ∧
    (c = .beginCmd →
      step s = .next { s with turns := rest, trace := s.trace ++ [.issue op s.arg], eng := .issued .beginCmd }))

/-! ### The step and the command in flight -/

/-- A step of the engine runs the command the engine has latched: with the engine's turn among the moves; with no move
listed and an engine step enabled (log 7); and right after `withFetchWord` (log 1). -/
def Obligations.EngineStepRunsTheLatchedCommand : Prop :=
  (∀ (s : State) (rest : List Turn) (i : Instr), s.quiescent = false → s.eng.command = some i →
    s.turns = .engine :: rest → step s = exec i { s with turns := rest }) ∧
  (∀ (s : State) (i : Instr), s.quiescent = false → s.eng.command = some i → s.engineReady = true →
    s.turns = [] → step s = exec i { s with tick := s.tick + 1 }) ∧
  (∀ (s : State) (nbits w : Nat) (i : Instr), decodeTableWord nbits w = some i →
    step (s.withFetchWord nbits w) = exec i { s with eng := .issued i, quiescent := false })

/-- The command word a CMD write issues is what the engine then runs: a write of `op` that the checks accept, then the
engine's turn, is `exec` of the command that `op : ARG` decodes to (20_memory.md R52, 10_state.md R30). -/
def Obligations.IssuedWordIsTheCommandRun : Prop :=
  ∀ (s : State) (rest : List Turn) (op : Byte) (i : Instr), s.quiescent = false →
    decode (commandWord op s.arg) = .command i → issueCheck s op = .accept i →
    s.turns = .access (.write (s.params.base + 5) 1 op) :: .engine :: rest →
    ∃ t, step s = .next t ∧ t.trace = s.trace ++ [.issue op s.arg] ∧
      step t = exec i { s with turns := rest, trace := s.trace ++ [.issue op s.arg], eng := .issued i }

/-! ### Engine writes, phases and the environment (20_memory.md R58 to R64) -/

/-- 20_memory.md R58: `CtrlWrite(v)` and `DataWrite(b)`. -/
def Obligations.CtrlAndDataWriteRule : Prop :=
  (∀ (s : State) (v : Byte), v.getLsbD 2 = false →
    s.ctrlWrite v = { s with trace := s.trace ++ [.cw v], ctrl := 0x00, pend := none }) ∧
  (∀ (s : State) (v : Byte), v.getLsbD 2 = true → ∃ c : Byte,
    s.ctrlWrite v = { s with trace := s.trace ++ [.cw v], ctrl := c } ∧
    c.getLsbD 7 = (if v.getLsbD 7 then false else s.ctrl.getLsbD 7) ∧ c.getLsbD 6 = v.getLsbD 6 ∧
    c.getLsbD 5 = v.getLsbD 5 ∧ c.getLsbD 4 = v.getLsbD 4 ∧ c.getLsbD 2 = true ∧
    c.getLsbD 3 = false ∧ c.getLsbD 1 = false ∧ c.getLsbD 0 = false) ∧
  (∀ (s : State) (b : Byte), s.dataWrite b = { s with trace := s.trace ++ [.dw b], data := b })

/-- 20_memory.md R59: `Launch(p)` sets the pending phase and appends `PH(p)`; an engine step launches only right after a
CTRL write with INT = 1 and EN = 1, with no phase pending before it; the phase, which then pends, is the command's own
or a STOP phase. Over a whole step the trace only grows, by events in that order, and a phase that newly pends is launched
in them. A turn of any agent but the engine launches nothing. -/
def Obligations.LaunchesFollowAnEnablingWrite : Prop :=
  (∀ (s : State) (p : Phase), s.launch p = { s with trace := s.trace ++ [.ph p], pend := some p }) ∧
  (∀ (i : Instr) (s t : State), s.Inv → s.eng.command = some i → exec i s = .next t →
    ∃ events, t.trace = s.trace ++ events ∧ launchesFollowWrites false events = true ∧
      (∀ p, Event.ph p ∈ events → s.pend = none ∧ t.pend = some p ∧ (mainPhase i = some p ∨ p = .stop))) ∧
  (∀ s t : State, s.Inv → step s = .next t →
    ∃ events, t.trace = s.trace ++ events ∧ launchesFollowWrites false events = true ∧
      (∀ p, Event.ph p ∈ events → s.pend = none ∧ t.pend = some p ∧
        ∃ i, s.eng.command = some i ∧ (mainPhase i = some p ∨ p = .stop)) ∧
      (∀ p, s.pend ≠ some p → t.pend = some p → s.pend = none ∧ Event.ph p ∈ events)) ∧
  (∀ (s t : State) (k : Turn), k ≠ .engine → s.takeTurn k = .next t →
    (t.pend = s.pend ∨ t.pend = none) ∧
    ∃ events, t.trace = s.trace ++ events ∧ ∀ p, Event.ph p ∉ events)

/-- 20_memory.md R60: the completion of a pending phase with an outcome the environment may give: CODE is written, PS
is not, INT is set and STO cleared, DATA takes the byte of an RX phase only, the trace records the outcome, nothing
pends any more, and the engine's Await() returns the status. With no phase pending no completion is enabled; that a turn
`complete` is then a next state with the block unchanged is the model's choice (log 12). After an ADDR or TX phase DATA
still holds the byte sent (`State.Inv`). -/
def Obligations.PhaseCompletionRule : Prop :=
  (∀ (s : State) (rest : List Turn) (p : Phase) (o : PhaseOutcome), s.quiescent = false →
    s.turns = .complete o :: rest → s.pend = some p → drawAllows s.params.statusDraw p o.code = true →
    ∃ t, step s = .next t ∧
      t = { s with
        turns := rest, pend := none, status := t.status, ctrl := t.ctrl, data := t.data, trace := t.trace } ∧
      t.status.extractLsb' 3 5 = o.code ∧ t.status.extractLsb' 0 3 = s.status.extractLsb' 0 3 ∧
      t.maskedStatus = o.code ++ 0#3 ∧
      t.ctrl.getLsbD 7 = true ∧ t.ctrl.getLsbD 4 = false ∧ t.ctrl &&& 0x6F = s.ctrl &&& 0x6F ∧
      (∀ k, p = .rx k → t.data = o.byte ∧ t.trace = s.trace ++ [.oc (o.code ++ 0#3) (some o.byte)]) ∧
      ((∀ k, p ≠ .rx k) → t.data = s.data ∧ t.trace = s.trace ++ [.oc (o.code ++ 0#3) none])) ∧
  (∀ (s : State) (rest : List Turn) (o : PhaseOutcome), s.quiescent = false → s.turns = .complete o :: rest →
    s.pend = none → step s = .next { s with turns := rest }) ∧
  (∀ (s : State) (b : Byte) (o : PhaseOutcome), s.Inv →
    (s.pend = some (.addr b) → (s.completePhase (.addr b) o).data = b) ∧
    (s.pend = some (.tx b) → (s.completePhase (.tx b) o).data = b))

/-- 20_memory.md R61 and the table of R63: under ANY every code of every phase is a possible outcome; under PROTOCOL
exactly those of the phase's row (log 13 says why the table's STOP row stands as it is). That an outcome outside the draw
completes nothing is the model's choice (log 17). -/
def Obligations.EnvironmentDrawsFromItsSet : Prop :=
  (∀ (p : Phase) (c : StatusCode), drawAllows .any p c = true) ∧
  (∀ c : StatusCode,
    (drawAllows .protocol .start c = true ↔ c ++ 0#3 ∈ [0x08#8, 0x10#8, 0x38#8, 0x00#8]) ∧
    (∀ b : Byte, b.getLsbD 0 = false →
      (drawAllows .protocol (.addr b) c = true ↔ c ++ 0#3 ∈ [0x18#8, 0x20#8, 0x38#8, 0x00#8])) ∧
    (∀ b : Byte, b.getLsbD 0 = true →
      (drawAllows .protocol (.addr b) c = true ↔ c ++ 0#3 ∈ [0x40#8, 0x48#8, 0x38#8, 0x00#8])) ∧
    (∀ b : Byte, drawAllows .protocol (.tx b) c = true ↔ c ++ 0#3 ∈ [0x28#8, 0x30#8, 0x38#8, 0x00#8]) ∧
    (drawAllows .protocol (.rx 1) c = true ↔ c ++ 0#3 ∈ [0x50#8, 0x38#8, 0x00#8]) ∧
    (drawAllows .protocol (.rx 0) c = true ↔ c ++ 0#3 ∈ [0x58#8, 0x38#8, 0x00#8]) ∧
    (drawAllows .protocol .stop c = true ↔ c ++ 0#3 ∈ [0xF8#8, 0x00#8])) ∧
  (∀ (s : State) (p : Phase) (o : PhaseOutcome), s.pend = some p →
    drawAllows s.params.statusDraw p o.code = false → s.completeWith o = s)

/-- 20_memory.md R64: ACK_ENV completes every pending phase in its first step, with the outcome of its table. -/
def Obligations.AckEnvironmentAnswersItsTable : Prop :=
  ∀ (s : State) (p : Phase) (rx : List Byte) (rest : List Turn), s.env = .ack rx → s.pend = some p →
    s.quiescent = false → s.turns = .environment :: rest →
    ∃ t, step s = .next t ∧ t.pend = none ∧
      (p = .start → s.txnOpen = false → t.maskedStatus = 0x08) ∧
      (p = .start → s.txnOpen = true → t.maskedStatus = 0x10) ∧
      (∀ b, p = .addr b → b.getLsbD 0 = false → t.maskedStatus = 0x18) ∧
      (∀ b, p = .addr b → b.getLsbD 0 = true → t.maskedStatus = 0x40) ∧
      (∀ b, p = .tx b → t.maskedStatus = 0x28) ∧
      (p = .rx 1 → t.maskedStatus = 0x50) ∧
      (p = .rx 0 → t.maskedStatus = 0x58) ∧
      (p = .stop → t.maskedStatus = 0xF8) ∧
      (∀ k b more, p = .rx k → rx = b :: more → t.data = b ∧ t.env = .ack more)

/-- 20_memory.md R62, 10_state.md R32: a pending phase ends only by its completion or by a reset; until then the
engine stays in its hold, BUSY stays 1 and RESULT stays. -/
def Obligations.HoldsEndOnlyByCompletionOrReset : Prop :=
  ∀ (s t : State) (p : Phase), s.Inv → s.pend = some p → step s = .next t →
    (t.pend = some p ∧ t.eng = s.eng ∧ t.engstat.getLsbD 0 = true ∧ t.result = s.result) ∨
    (t.pend = none ∧ t.eng = s.eng ∧ ∃ o : PhaseOutcome,
      t.trace = s.trace ++ [.oc (statusOfCode o.code) (if p.isRx then some o.byte else none)]) ∨
    (t.pend = none ∧ t.eng = .idle ∧ t.trace = s.trace ++ [.rst])

/-- 20_memory.md R62, 95_test_vectors.md P4: where the environment never completes the phase, the host polls for ever:
every number of steps leaves the engine in its hold. It is stated for the eager order of moves (log 7) and the host
at its poll. -/
def Obligations.UnansweredPhaseHangsForever : Prop :=
  ∀ (s : State) (p : Phase) (k : Nat), s.turns = [] → s.env = .script [] → s.quiescent = false →
    s.pend = some p → s.eng.inHold = true → s.host.stage = .poll →
    ∃ t, Sys2Proof.core.run k s = .next t ∧ t.pend = some p ∧ t.eng = s.eng ∧ t.result = s.result ∧
      t.ctrl = s.ctrl ∧ t.trace = s.trace ∧ t.engstat.getLsbD 0 = true ∧ t.host = s.host

/-! ### The detector and the exits (60_exceptions.md R200 to R208) -/

/-- 60_exceptions.md R200: the classification of every status of every command with a phase, each of the three verdicts
exactly on its set; the stop phase of a NACK path is classified as STOP's row. -/
def Obligations.ClassificationTable : Prop :=
  (∀ (c : Instr) (s : Byte) (success nack : List Byte),
    (c = .start ∧ success = [0x08, 0x10] ∧ nack = [] ∨
      c = .stop ∧ success = [0xF8] ∧ nack = [] ∨
      (∃ a d, c = .sendAddress a d) ∧ success = [0x18, 0x40] ∧ nack = [0x20, 0x48] ∨
      (∃ b, c = .sendByte b) ∧ success = [0x28] ∧ nack = [0x30] ∨
      (∃ k, c = .receiveByte k) ∧ success = [0x50, 0x58] ∧ nack = []) →
    (classify c s = some .success ↔ s ∈ success) ∧
    (classify c s = some .nack ↔ s ∈ nack) ∧
    (classify c s = some .fail ↔ s ∉ success ∧ s ∉ nack)) ∧
  (∀ (s : State) (saved st : Byte), s.nackDone saved st =
    if classify .stop st = some .success then (s.setTxnOpen false).finish saved
    else (s.setTxnOpen false).recover.finish saved)

/-- The table of 60_exceptions.md R201: the value of each named condition, every other multiple of 8 being
UNRECOGNIZED; the category of each row, a command's SUCCESS or NACK exactly on the conditions that name it and FAIL
elsewhere; and the result a failure leaves. -/
def Obligations.NamedConditionsHaveTheirCategory : Prop :=
  (∀ c : StatusCode,
    (conditionOf (c ++ 0#3) = .busError ↔ c ++ 0#3 = 0x00#8) ∧
    (conditionOf (c ++ 0#3) = .start ↔ c ++ 0#3 = 0x08#8) ∧
    (conditionOf (c ++ 0#3) = .repStart ↔ c ++ 0#3 = 0x10#8) ∧
    (conditionOf (c ++ 0#3) = .mtSlaAck ↔ c ++ 0#3 = 0x18#8) ∧
    (conditionOf (c ++ 0#3) = .mtSlaNack ↔ c ++ 0#3 = 0x20#8) ∧
    (conditionOf (c ++ 0#3) = .mtDataAck ↔ c ++ 0#3 = 0x28#8) ∧
    (conditionOf (c ++ 0#3) = .mtDataNack ↔ c ++ 0#3 = 0x30#8) ∧
    (conditionOf (c ++ 0#3) = .arbLost ↔ c ++ 0#3 = 0x38#8) ∧
    (conditionOf (c ++ 0#3) = .mrSlaAck ↔ c ++ 0#3 = 0x40#8) ∧
    (conditionOf (c ++ 0#3) = .mrSlaNack ↔ c ++ 0#3 = 0x48#8) ∧
    (conditionOf (c ++ 0#3) = .mrDataAck ↔ c ++ 0#3 = 0x50#8) ∧
    (conditionOf (c ++ 0#3) = .mrDataNack ↔ c ++ 0#3 = 0x58#8) ∧
    (conditionOf (c ++ 0#3) = .stopCompleted ↔ c ++ 0#3 = 0xF8#8) ∧
    (conditionOf (c ++ 0#3) = .unrecognized ↔
      c ++ 0#3 ∉ [0x00#8, 0x08#8, 0x10#8, 0x18#8, 0x20#8, 0x28#8, 0x30#8, 0x38#8, 0x40#8, 0x48#8, 0x50#8, 0x58#8,
        0xF8#8])) ∧
  (∀ (i : Instr) (c : StatusCode) (success nack : List Condition),
    (i = .start ∧ success = [.start, .repStart] ∧ nack = [] ∨
      i = .stop ∧ success = [.stopCompleted] ∧ nack = [] ∨
      (∃ a d, i = .sendAddress a d) ∧ success = [.mtSlaAck, .mrSlaAck] ∧ nack = [.mtSlaNack, .mrSlaNack] ∨
      (∃ b, i = .sendByte b) ∧ success = [.mtDataAck] ∧ nack = [.mtDataNack] ∨
      (∃ k, i = .receiveByte k) ∧ success = [.mrDataAck, .mrDataNack] ∧ nack = []) →
    (classify i (c ++ 0#3) = some .success ↔ conditionOf (c ++ 0#3) ∈ success) ∧
    (classify i (c ++ 0#3) = some .nack ↔ conditionOf (c ++ 0#3) ∈ nack) ∧
    (classify i (c ++ 0#3) = some .fail ↔
      conditionOf (c ++ 0#3) ∉ success ∧ conditionOf (c ++ 0#3) ∉ nack)) ∧
  (∀ c : StatusCode, enc (c ++ 0#3) = if conditionOf (c ++ 0#3) = .busError then 0xFF else c ++ 0#3)

/-- The result encoding of 60_exceptions.md R202: 0x00 becomes 0xFF and every other status stays; no failure result
is 0x00; the failure result of a masked status is 0xFF or a non-zero multiple of 8. -/
def Obligations.FailureResultsAreNeverZero : Prop :=
  enc 0x00 = 0xFF ∧ (∀ s : Byte, s ≠ 0x00 → enc s = s) ∧ (∀ s : Byte, enc s ≠ 0x00) ∧
  (∀ c : StatusCode, enc (c ++ 0#3) = 0xFF ∨ (enc (c ++ 0#3) ≠ 0x00 ∧ 8 ∣ (enc (c ++ 0#3)).toNat))

/-- 60_exceptions.md R204, R206: `Recover()` clears CTRL and re-enables it, closes the transaction and changes nothing
else; `FailExit(s)` is a recovery and a finish with `enc(s)`. -/
def Obligations.RecoveryAndFailureExit : Prop :=
  (∀ s : State, s.recover =
    { s with ctrl := 0x44, pend := none, txnOpen := false, trace := s.trace ++ [.cw 0x00, .cw 0x44] }) ∧
  (∀ (s : State) (st : Byte), s.failExit st =
    { s with
      ctrl := 0x44, pend := none, txnOpen := false, result := if st = 0x00 then 0xFF else st, eng := .idle
      trace := s.trace ++ [.cw 0x00, .cw 0x44, .res (if st = 0x00 then 0xFF else st)] })

/-- 41_bus_conditions.md R121: the stop micro-sequence, for any command that runs it: its writes and its hold; after
the hold the transaction is closed, and a status other than 0xF8 recovers the bus, once. -/
def Obligations.StopSequenceRule : Prop :=
  (∀ (s : State) (c : Instr) (saved : Option Byte), s.stopSeqLaunch c saved =
    { s with ctrl := 0x14, pend := some .stop, eng := .wStop c saved, trace := s.trace ++ [.cw 0x94, .ph .stop] }) ∧
  (∀ s : State, s.stopSeqEnd 0xF8 = { s with txnOpen := false }) ∧
  (∀ (s : State) (st : Byte), st ≠ 0xF8 → s.stopSeqEnd st =
    { s with ctrl := 0x44, pend := none, txnOpen := false, trace := s.trace ++ [.cw 0x00, .cw 0x44] }) ∧
  (∀ (s : State) (c : Instr) (saved : Option Byte), s.Inv → s.eng = .wStop c saved → s.pend = none →
    s.ctrl = 0x84)

/-- 60_exceptions.md R207: after a failure the engine is IDLE, the transaction is closed and the block is enabled; the
host may issue any command, and a data-phase command faults until a START succeeds. -/
def Obligations.FailedCommandsLeaveAnEnabledClosedBlock : Prop :=
  ∀ (i : Instr) (s t : State), s.Inv → s.eng.command = some i → exec i s = .next t → t.eng = .idle →
    t.result ≠ 0x00 →
    t.txnOpen = false ∧ t.enabled = true ∧
    ∀ (op : Byte) (c : Instr), decode (commandWord op t.arg) = .command c →
      issueCheck t op = if isDataPhase c then .reject .noTxn else .accept c

/-! ### The configuration commands (40_config.md) -/

/-- 40_config.md R101, BEGIN: its word, its issue checks and its one engine step. -/
def Obligations.BeginRule : Prop :=
  encode .beginCmd = 0x0100 ∧
  (∀ s : State, s.arg = 0x00 → issueCheck s 0x01 =
    if s.busy then .reject .busy else if s.txnOpen then .reject .midTxn else .accept .beginCmd) ∧
  (∀ s : State, s.eng = .issued .beginCmd → exec .beginCmd s =
    .next { s with
      status := s.status &&& 0xFC
      bitrate := s.params.bitRateOf s.speedSel
      ctrl := 0x44 ||| (s.ctrl &&& 0x80)
      result := 0x00
      eng := .idle
      trace := s.trace ++ [.cw 0x44, .res 0x00] })

/-- 40_config.md R102, END: its word, its issue checks, its one engine step, and that every command but BEGIN then
faults. -/
def Obligations.EndRule : Prop :=
  encode .endCmd = 0x0200 ∧
  (∀ s : State, s.arg = 0x00 → issueCheck s 0x02 =
    if s.busy then .reject .busy else if s.enabled then .accept .endCmd else .reject .disabled) ∧
  (∀ s : State, s.eng = .issued .endCmd → exec .endCmd s =
    .next { s with
      ctrl := 0x00
      pend := none
      txnOpen := false
      result := 0x00
      eng := .idle
      trace := s.trace ++ [.cw 0x00, .res 0x00] }) ∧
  (∀ (s t : State) (op : Byte) (c : Instr), s.eng = .issued .endCmd → exec .endCmd s = .next t →
    decode (commandWord op t.arg) = .command c → c ≠ .beginCmd → issueCheck t op = .reject .disabled)

/-- 40_config.md R103, SET_LOW_SPEED: its word, its issue checks, its one engine step, and the round trip
SET_LOW_SPEED, SET_HIGH_SPEED, SET_LOW_SPEED, which ends at BR_LOW whatever BITRATE was. -/
def Obligations.SetLowSpeedRule : Prop :=
  encode .setLowSpeed = 0x0300 ∧
  (∀ s : State, s.arg = 0x00 → issueCheck s 0x03 =
    if s.busy then .reject .busy
    else if s.enabled then (if s.txnOpen then .reject .midTxn else .accept .setLowSpeed)
    else .reject .disabled) ∧
  (∀ s : State, s.eng = .issued .setLowSpeed → exec .setLowSpeed s =
    .next { s with
      speedSel := .low
      bitrate := s.params.bitRateOf .low
      result := 0x00
      eng := .idle
      trace := s.trace ++ [.res 0x00] }) ∧
  (∀ (s : State) (rest : List Turn), s.eng = .idle → s.arg = 0x00 → s.enabled = true → s.txnOpen = false →
    s.quiescent = false →
    s.turns = [.access (.write (s.params.base + 5) 1 0x03), .engine,
      .access (.write (s.params.base + 5) 1 0x04), .engine,
      .access (.write (s.params.base + 5) 1 0x03), .engine] ++ rest →
    ∃ t, Sys2Proof.core.run 6 s = .next t ∧ t.bitrate = s.params.bitRateOf .low ∧ t.speedSel = .low ∧
      t.result = 0x00 ∧ t.eng = .idle)

/-- 40_config.md R104, SET_HIGH_SPEED: its word, its issue checks and its one engine step. -/
def Obligations.SetHighSpeedRule : Prop :=
  encode .setHighSpeed = 0x0400 ∧
  (∀ s : State, s.arg = 0x00 → issueCheck s 0x04 =
    if s.busy then .reject .busy
    else if s.enabled then (if s.txnOpen then .reject .midTxn else .accept .setHighSpeed)
    else .reject .disabled) ∧
  (∀ s : State, s.eng = .issued .setHighSpeed → exec .setHighSpeed s =
    .next { s with
      speedSel := .high
      bitrate := s.params.bitRateOf .high
      result := 0x00
      eng := .idle
      trace := s.trace ++ [.res 0x00] })

/-- 40_config.md R100, 00_scope.md R8: the bit-rate constants of a legal clock fit BITRATE, and which clocks are
legal. -/
def Obligations.BitRateConstants : Prop :=
  (∀ (c : LegalClock) (base : Nat) (d : StatusDraw),
    ((Params.mk c base d).bitRateOf .low).toNat = (c.hz / 100000 - 16) / 2 ∧ 16 ≤ c.hz / 100000 ∧
    ((Params.mk c base d).bitRateOf .high).toNat = (c.hz / 400000 - 16) / 2 ∧ 16 ≤ c.hz / 400000) ∧
  (∀ hz : Nat, (∃ c : LegalClock, c.hz = hz) ↔
    (16 ≤ hz / 100000 ∧ (hz / 100000 - 16) / 2 ≤ 255 ∧ 16 ≤ hz / 400000 ∧ (hz / 400000 - 16) / 2 ≤ 255)) ∧
  bitRate 16000000 100000 = 0x48 ∧ bitRate 16000000 400000 = 0x0C ∧ bitRate 52700000 100000 = 255

/-- 40_config.md R105: no result, status classification or trace event depends on BITRATE or PS, neither in an engine
step nor in a phase completion. -/
def Obligations.BitrateAndPrescalerDoNotMatter : Prop :=
  (∀ (i : Instr) (s t : State) (b : Byte) (ps : BitVec 2), exec i s = .next t →
    ∃ t', exec i { s with bitrate := b, status := (s.status &&& 0xFC) ||| ps.setWidth 8 } = .next t' ∧
      t'.result = t.result ∧ t'.trace = t.trace ∧ t'.eng = t.eng ∧ t'.pend = t.pend ∧ t'.ctrl = t.ctrl ∧
      t'.data = t.data ∧ t'.txnOpen = t.txnOpen) ∧
  (∀ (s : State) (p : Phase) (o : PhaseOutcome) (b : Byte) (ps : BitVec 2), ∃ u,
    u = { s with bitrate := b, status := (s.status &&& 0xFC) ||| ps.setWidth 8 } ∧
    u.maskedStatus = s.maskedStatus ∧
    (u.completePhase p o).maskedStatus = (s.completePhase p o).maskedStatus ∧
    (u.completePhase p o).trace = (s.completePhase p o).trace)

/-! ### The bus commands (41_bus_conditions.md, 42_data_phase.md) -/

/-- 41_bus_conditions.md R120, START: its word, its issue checks, its engine step to the hold, the hold, and its end by
the status of the completed phase. -/
def Obligations.StartRule : Prop :=
  encode .start = 0x1000 ∧
  (∀ s : State, s.arg = 0x00 → issueCheck s 0x10 =
    if s.busy then .reject .busy else if s.enabled then .accept .start else .reject .disabled) ∧
  (∀ s : State, s.eng = .issued .start → exec .start s =
    .next { s with
      ctrl := 0x24, pend := some .start, eng := .wMain .start, trace := s.trace ++ [.cw 0xA4, .ph .start] }) ∧
  (∀ (s : State) (p : Phase), s.eng = .wMain .start → s.pend = some p → exec .start s = .next s) ∧
  (∀ s : State, s.eng = .wMain .start → s.pend = none → (s.maskedStatus = 0x08 ∨ s.maskedStatus = 0x10) →
    exec .start s =
      .next { s with txnOpen := true, result := 0x00, eng := .idle, trace := s.trace ++ [.res 0x00] }) ∧
  (∀ s : State, s.Inv → s.eng = .wMain .start → s.pend = none → s.ctrl = 0xA4) ∧
  (∀ s : State, s.eng = .wMain .start → s.pend = none → s.maskedStatus ≠ 0x08 → s.maskedStatus ≠ 0x10 →
    exec .start s =
      .next { s with
        ctrl := 0x44
        txnOpen := false
        result := if s.maskedStatus = 0x00 then 0xFF else s.maskedStatus
        eng := .idle
        trace := s.trace ++
          [.cw 0x00, .cw 0x44, .res (if s.maskedStatus = 0x00 then 0xFF else s.maskedStatus)] })

/-- 41_bus_conditions.md R122, STOP: its word, its issue checks, its engine step to the hold, the hold, and its end by
the status of the completed phase; it runs whether or not a transaction is open. -/
def Obligations.StopRule : Prop :=
  encode .stop = 0x1100 ∧
  (∀ s : State, s.arg = 0x00 → issueCheck s 0x11 =
    if s.busy then .reject .busy else if s.enabled then .accept .stop else .reject .disabled) ∧
  (∀ s : State, s.eng = .issued .stop → exec .stop s =
    .next { s with
      ctrl := 0x14, pend := some .stop, eng := .wStop .stop none, trace := s.trace ++ [.cw 0x94, .ph .stop] }) ∧
  (∀ (s : State) (p : Phase), s.eng = .wStop .stop none → s.pend = some p → exec .stop s = .next s) ∧
  (∀ s : State, s.eng = .wStop .stop none → s.pend = none → s.maskedStatus = 0xF8 →
    exec .stop s =
      .next { s with txnOpen := false, result := 0x00, eng := .idle, trace := s.trace ++ [.res 0x00] }) ∧
  (∀ s : State, s.Inv → s.eng = .wStop .stop none → s.pend = none → s.ctrl = 0x84) ∧
  (∀ s : State, s.eng = .wStop .stop none → s.pend = none → s.maskedStatus ≠ 0xF8 →
    exec .stop s =
      .next { s with
        ctrl := 0x44
        txnOpen := false
        result := if s.maskedStatus = 0x00 then 0xFF else s.maskedStatus
        eng := .idle
        trace := s.trace ++
          [.cw 0x00, .cw 0x44, .res (if s.maskedStatus = 0x00 then 0xFF else s.maskedStatus)] })

/-- 42_data_phase.md R140, SEND_ADDRESS: its word, its issue checks, its engine step to the hold, the hold, and its
end: success on either ACK code; the NACK path (60_exceptions.md R205) on either NACK code whatever the direction, which
reports the NACK status and not the stop's own; recovery on any other. -/
def Obligations.SendAddressRule : Prop :=
  ∀ (a : BitVec 7) (d : BitVec 1) (b : Byte), b = (a.setWidth 8 <<< 1) ||| d.setWidth 8 →
    encode (.sendAddress a d) = 0x12#8 ++ b ∧
    (∀ s : State, s.arg = b → issueCheck s 0x12 =
      if s.busy then .reject .busy
      else if s.enabled then (if s.txnOpen then .accept (.sendAddress a d) else .reject .noTxn)
      else .reject .disabled) ∧
    (∀ s : State, s.eng = .issued (.sendAddress a d) → exec (.sendAddress a d) s =
      .next { s with
        data := b
        ctrl := 0x04
        pend := some (.addr b)
        eng := .wMain (.sendAddress a d)
        trace := s.trace ++ [.dw b, .cw 0x84, .ph (.addr b)] }) ∧
    (∀ (s : State) (p : Phase) (saved : Option Byte),
      (s.eng = .wMain (.sendAddress a d) ∨ s.eng = .wStop (.sendAddress a d) saved) → s.pend = some p →
      exec (.sendAddress a d) s = .next s) ∧
    (∀ s : State, s.eng = .wMain (.sendAddress a d) → s.pend = none →
      (s.maskedStatus = 0x18 ∨ s.maskedStatus = 0x40) →
      exec (.sendAddress a d) s =
        .next { s with result := 0x00, eng := .idle, trace := s.trace ++ [.res 0x00] }) ∧
    (∀ s : State, s.Inv → s.eng = .wMain (.sendAddress a d) → s.pend = none → s.ctrl = 0x84) ∧
    (∀ s : State, s.eng = .wMain (.sendAddress a d) → s.pend = none →
      (s.maskedStatus = 0x20 ∨ s.maskedStatus = 0x48) →
      exec (.sendAddress a d) s =
        .next { s with
          ctrl := 0x14
          pend := some .stop
          eng := .wStop (.sendAddress a d) (some s.maskedStatus)
          trace := s.trace ++ [.cw 0x94, .ph .stop] }) ∧
    (∀ (s : State) (saved : Byte), s.eng = .wStop (.sendAddress a d) (some saved) → s.pend = none →
      (s.maskedStatus = 0xF8 → exec (.sendAddress a d) s =
        .next { s with txnOpen := false, result := saved, eng := .idle, trace := s.trace ++ [.res saved] }) ∧
      (s.maskedStatus ≠ 0xF8 → exec (.sendAddress a d) s =
        .next { s with
          ctrl := 0x44
          txnOpen := false
          result := saved
          eng := .idle
          trace := s.trace ++ [.cw 0x00, .cw 0x44, .res saved] })) ∧
    (∀ s : State, s.eng = .wMain (.sendAddress a d) → s.pend = none → s.maskedStatus ∉ [0x18, 0x40, 0x20, 0x48] →
      exec (.sendAddress a d) s =
        .next { s with
          ctrl := 0x44
          txnOpen := false
          result := if s.maskedStatus = 0x00 then 0xFF else s.maskedStatus
          eng := .idle
          trace := s.trace ++
            [.cw 0x00, .cw 0x44, .res (if s.maskedStatus = 0x00 then 0xFF else s.maskedStatus)] })

/-- 42_data_phase.md R141, SEND_BYTE: its word, its issue checks, its engine step to the hold, the hold, and its end:
success on 0x28; the NACK path (60_exceptions.md R205) on 0x30, which reports the NACK status and not the stop's own;
recovery on any other. -/
def Obligations.SendByteRule : Prop :=
  ∀ b : Byte,
    encode (.sendByte b) = 0x13#8 ++ b ∧
    (∀ s : State, s.arg = b → issueCheck s 0x13 =
      if s.busy then .reject .busy
      else if s.enabled then (if s.txnOpen then .accept (.sendByte b) else .reject .noTxn)
      else .reject .disabled) ∧
    (∀ s : State, s.eng = .issued (.sendByte b) → exec (.sendByte b) s =
      .next { s with
        data := b
        ctrl := 0x04
        pend := some (.tx b)
        eng := .wMain (.sendByte b)
        trace := s.trace ++ [.dw b, .cw 0x84, .ph (.tx b)] }) ∧
    (∀ (s : State) (p : Phase) (saved : Option Byte),
      (s.eng = .wMain (.sendByte b) ∨ s.eng = .wStop (.sendByte b) saved) → s.pend = some p →
      exec (.sendByte b) s = .next s) ∧
    (∀ s : State, s.eng = .wMain (.sendByte b) → s.pend = none → s.maskedStatus = 0x28 →
      exec (.sendByte b) s =
        .next { s with result := 0x00, eng := .idle, trace := s.trace ++ [.res 0x00] }) ∧
    (∀ s : State, s.Inv → s.eng = .wMain (.sendByte b) → s.pend = none → s.ctrl = 0x84) ∧
    (∀ s : State, s.eng = .wMain (.sendByte b) → s.pend = none → s.maskedStatus = 0x30 →
      exec (.sendByte b) s =
        .next { s with
          ctrl := 0x14
          pend := some .stop
          eng := .wStop (.sendByte b) (some 0x30)
          trace := s.trace ++ [.cw 0x94, .ph .stop] }) ∧
    (∀ (s : State) (saved : Byte), s.eng = .wStop (.sendByte b) (some saved) → s.pend = none →
      (s.maskedStatus = 0xF8 → exec (.sendByte b) s =
        .next { s with txnOpen := false, result := saved, eng := .idle, trace := s.trace ++ [.res saved] }) ∧
      (s.maskedStatus ≠ 0xF8 → exec (.sendByte b) s =
        .next { s with
          ctrl := 0x44
          txnOpen := false
          result := saved
          eng := .idle
          trace := s.trace ++ [.cw 0x00, .cw 0x44, .res saved] })) ∧
    (∀ s : State, s.eng = .wMain (.sendByte b) → s.pend = none → s.maskedStatus ≠ 0x28 → s.maskedStatus ≠ 0x30 →
      exec (.sendByte b) s =
        .next { s with
          ctrl := 0x44
          txnOpen := false
          result := if s.maskedStatus = 0x00 then 0xFF else s.maskedStatus
          eng := .idle
          trace := s.trace ++
            [.cw 0x00, .cw 0x44, .res (if s.maskedStatus = 0x00 then 0xFF else s.maskedStatus)] })

/-- 42_data_phase.md R142, RECEIVE_BYTE: its words, its issue checks, its engine step to the hold, the hold, and its
end: success on either received-byte code whatever `k` was, recovery on any other. -/
def Obligations.ReceiveByteRule : Prop :=
  encode (.receiveByte 1) = 0x1401 ∧ encode (.receiveByte 0) = 0x1400 ∧
  (∀ (s : State) (k : BitVec 1), s.arg = k.setWidth 8 → issueCheck s 0x14 =
    if s.busy then .reject .busy
    else if s.enabled then (if s.txnOpen then .accept (.receiveByte k) else .reject .noTxn)
    else .reject .disabled) ∧
  (∀ (s : State) (k : BitVec 1), s.eng = .issued (.receiveByte k) → exec (.receiveByte k) s =
    .next { s with
      ctrl := if k = 1 then 0x44 else 0x04
      pend := some (.rx k)
      eng := .wMain (.receiveByte k)
      trace := s.trace ++ [.cw (if k = 1 then 0xC4 else 0x84), .ph (.rx k)] }) ∧
  (∀ (s : State) (k : BitVec 1) (p : Phase), s.eng = .wMain (.receiveByte k) → s.pend = some p →
    exec (.receiveByte k) s = .next s) ∧
  (∀ (s : State) (k : BitVec 1), s.eng = .wMain (.receiveByte k) → s.pend = none →
    (s.maskedStatus = 0x50 ∨ s.maskedStatus = 0x58) →
    exec (.receiveByte k) s =
      .next { s with result := 0x00, eng := .idle, trace := s.trace ++ [.res 0x00] }) ∧
  (∀ (s : State) (k : BitVec 1), s.Inv → s.eng = .wMain (.receiveByte k) → s.pend = none →
    s.ctrl = if k = 1 then 0xC4 else 0x84) ∧
  (∀ (s : State) (k : BitVec 1), s.eng = .wMain (.receiveByte k) → s.pend = none → s.maskedStatus ≠ 0x50 →
    s.maskedStatus ≠ 0x58 →
    exec (.receiveByte k) s =
      .next { s with
        ctrl := 0x44
        txnOpen := false
        result := if s.maskedStatus = 0x00 then 0xFF else s.maskedStatus
        eng := .idle
        trace := s.trace ++
          [.cw 0x00, .cw 0x44, .res (if s.maskedStatus = 0x00 then 0xFF else s.maskedStatus)] })

/-! ### Rules of the whole machine -/

/-- The start of a run meets the invariant and has a trace in order. -/
def Obligations.StartOfRunMeetsTheInvariant : Prop :=
  State.reset.Inv ∧ State.reset.TraceInOrder

/-- Every step keeps the invariant: the reserved bits read 0, PS stays 0, the disabled block is clear and closed, the
engine state fits the pending phase, CTRL and DATA, RESULT is a result, BITRATE is the constant SPEED_SEL names
(10_state.md R21 to R32, 60_exceptions.md R210). -/
def Obligations.EveryStepKeepsTheInvariant : Prop :=
  ∀ s t : State, s.Inv → step s = .next t → t.Inv

/-- 60_exceptions.md R208 (and 20_memory.md R66): every step keeps the trace in order: no phase and no command overlaps
another, a command has at most one STOP phase and at most one recovery, and a non-zero result comes only after one
of them and leaves the transaction closed. -/
def Obligations.EveryStepKeepsTheTraceInOrder : Prop :=
  ∀ s t : State, s.Inv → s.TraceInOrder → step s = .next t → t.TraceInOrder ∧ (t.result ≠ 0x00 → t.txnOpen = false)

/-- 10_state.md R38: no step changes the parameters. -/
def Obligations.ParametersNeverChange : Prop :=
  ∀ s t : State, step s = .next t → t.params = s.params

/-- 10_state.md R24: only BEGIN, SET_LOW_SPEED and SET_HIGH_SPEED write BITRATE, each one of the two constants; the host
cannot write it (a write faults; `quiescent`: log 6); reset gives it 0x00. -/
def Obligations.OnlyThreeCommandsWriteBitrate : Prop :=
  (∀ s t : State, step s = .next t → t.bitrate ≠ s.bitrate →
    (s.eng = .issued .beginCmd ∧ t.bitrate = s.params.bitRateOf s.speedSel) ∨
    (s.eng = .issued .setLowSpeed ∧ t.bitrate = s.params.bitRateOf .low) ∨
    (s.eng = .issued .setHighSpeed ∧ t.bitrate = s.params.bitRateOf .high) ∨
    (t.trace = s.trace ++ [.rst] ∧ t.bitrate = 0x00)) ∧
  (∀ (s : State) (v : Byte), s.hostWrite .bitrate v = { s with fault := some .hostAccess, quiescent := true }) ∧
  State.reset.bitrate = 0x00

/-- 10_state.md R29: only SET_LOW_SPEED and SET_HIGH_SPEED change SPEED_SEL; ENGSTAT.SPD reads it; BEGIN reads it; reset
gives it LOW. -/
def Obligations.OnlySpeedCommandsChangeTheSelection : Prop :=
  (∀ s t : State, step s = .next t → t.speedSel ≠ s.speedSel →
    (s.eng = .issued .setLowSpeed ∧ t.speedSel = .low) ∨
    (s.eng = .issued .setHighSpeed ∧ t.speedSel = .high) ∨
    (t.trace = s.trace ++ [.rst] ∧ t.speedSel = .low)) ∧
  (∀ s : State, s.engstat.getLsbD 1 = decide (s.speedSel = .high)) ∧
  (∀ s t : State, s.eng = .issued .beginCmd → exec .beginCmd s = .next t →
    t.bitrate = s.params.bitRateOf s.speedSel ∧ t.speedSel = s.speedSel) ∧
  Speed.low.hz = 100000 ∧ Speed.high.hz = 400000 ∧
  State.reset.speedSel = .low

/-- 10_state.md R31: what changes the ghost txn_open. -/
def Obligations.TransactionsOpenAndCloseByRule : Prop :=
  (∀ s t : State, step s = .next t → s.txnOpen = false → t.txnOpen = true →
    s.eng = .wMain .start ∧ t.eng = .idle ∧ t.result = 0x00) ∧
  (∀ s t : State, step s = .next t → s.txnOpen = true → t.txnOpen = false →
    (t.trace = s.trace ++ [.rst]) ∨ s.eng = .issued .endCmd ∨
    ((∃ c saved, s.eng = .wStop c saved) ∧ s.pend = none) ∨
    (∃ r, t.trace = s.trace ++ [.cw 0x00, .cw 0x44, .res r])) ∧
  (∀ s t : State, s.eng = .wMain .start → s.pend = none → exec .start s = .next t → t.result = 0x00 →
    t.txnOpen = true) ∧
  (∀ (s : State) (st : Byte), (s.stopSeqEnd st).txnOpen = false) ∧
  (∀ s : State, s.recover.txnOpen = false) ∧
  (∀ s t : State, s.eng = .issued .endCmd → exec .endCmd s = .next t → t.txnOpen = false) ∧
  (∀ s : State, s.resetAct.txnOpen = false) ∧
  State.reset.txnOpen = false

/-- 10_state.md R27: RESULT changes only when a command completes, which the trace records, or at reset; the host
cannot write it (a write faults; `quiescent`: log 6). -/
def Obligations.ResultChangesOnlyAtFinish : Prop :=
  (∀ s t : State, step s = .next t → t.result ≠ s.result →
    (t.eng = .idle ∧ ∃ events, t.trace = s.trace ++ events ++ [.res t.result]) ∨
    (t.trace = s.trace ++ [.rst] ∧ t.result = 0x00)) ∧
  (∀ (s : State) (v : Byte), s.hostWrite .result v = { s with fault := some .hostAccess, quiescent := true }) ∧
  State.reset.result = 0x00

/-- 10_state.md R22: CODE is written by phase completions only, and no step makes PS or the reserved bit non-zero; reset
gives STATUS 0xF8. -/
def Obligations.StatusChangesOnlyAtCompletion : Prop :=
  ∀ s t : State, s.Inv → step s = .next t → t.status ≠ s.status →
    t.status &&& 0x07 = 0x00 ∧
    ((∃ b, t.trace = s.trace ++ [.oc t.status b]) ∨ (t.trace = s.trace ++ [.rst] ∧ t.status = 0xF8))

/-- 42_data_phase.md R143, 70_reset_and_hazards.md R250: DATA changes only at the first step of a send, at the
completion of an RX phase, which the trace records with the byte, and at reset; in particular no recovery and no END
changes it. -/
def Obligations.DataStaysUntilTheNextTransfer : Prop :=
  ∀ s t : State, step s = .next t → t.data ≠ s.data →
    (∃ a d, s.eng = .issued (.sendAddress a d) ∧ t.data = slaByte a d) ∨
    (∃ b, s.eng = .issued (.sendByte b) ∧ t.data = b) ∨
    (∃ k st, s.pend = some (.rx k) ∧ t.pend = none ∧ t.trace = s.trace ++ [.oc st (some t.data)]) ∨
    (t.trace = s.trace ++ [.rst] ∧ t.data = 0xFF)

/-- 10_state.md R25: the host reads and writes ARG in every engine state, and a write while a command is in flight has no effect
on that command: its steps do the same with the new ARG. -/
def Obligations.ArgWritesDoNotTouchTheCommandInFlight : Prop :=
  (∀ (s : State) (rest : List Turn) (v : Byte), s.quiescent = false →
    s.turns = .access (.write (s.params.base + 4) 1 v) :: rest →
    step s = .next { s with turns := rest, arg := v }) ∧
  (∀ (s : State) (rest : List Turn), s.quiescent = false →
    s.turns = .access (.read (s.params.base + 4) 1) :: rest →
    step s = .next { s with turns := rest, reads := s.reads ++ [s.arg] }) ∧
  (∀ (i : Instr) (s t : State) (v : Byte), exec i s = .next t →
    exec i { s with arg := v } = .next { t with arg := v }) ∧
  State.reset.arg = 0x00

/-- 60_exceptions.md R217, its first two sentences: the disabled state is entered by END or reset, and only BEGIN
leaves it. -/
def Obligations.OnlyBeginLeavesTheDisabledState : Prop :=
  (∀ s t : State, s.Inv → step s = .next t → s.enabled = false → t.enabled = true → s.eng = .issued .beginCmd) ∧
  (∀ s t : State, s.Inv → step s = .next t → s.enabled = true → t.enabled = false →
    s.eng = .issued .endCmd ∨ t.trace = s.trace ++ [.rst])

/-! ### Host programs (43_composite.md) -/

/-- The loop of 43_composite.md R160, one host access a step (log 9): a run starts at line 0 with `last` 0x00; a command's
ARG, then its CMD, then the poll until
BUSY reads 0, then RESULT, with the short-circuit; a READ line notes the register's value. A CMD delivery that the issue checks reject
issues nothing and raises the fault; the program then stands at its poll in a quiescent state (log 6). -/
def Obligations.RunProgramLoop : Prop :=
  (∀ (s : State) (lines : List Line) (rest : List Turn), s.quiescent = false → s.turns = .run lines :: rest →
    step s = .next { s with
      turns := rest, host := { lines := lines, hpc := 0, last := 0x00, stage := .fetch } }) ∧
  (∀ (s : State) (c : Instr), s.host.stage = .fetch → s.host.lines[s.host.hpc]? = some (.command c) →
    s.programStep = { s with arg := c.argByte, host := { s.host with stage := .deliver c.op } }) ∧
  (∀ (s : State) (op : Byte) (c : Instr), s.host.stage = .deliver op → issueCheck s op = .accept c →
    s.programStep =
      { s with
        trace := s.trace ++ [.issue op s.arg], eng := .issued c, host := { s.host with stage := .poll } }) ∧
  (∀ (s : State) (op : Byte) (r : FaultReason), s.host.stage = .deliver op → issueCheck s op = .reject r →
    s.programStep = { s with fault := some r, quiescent := true, host := { s.host with stage := .poll } }) ∧
  (∀ s : State, s.host.stage = .poll → s.eng ≠ .idle → s.programStep = s) ∧
  (∀ s : State, s.host.stage = .poll → s.eng = .idle →
    s.programStep = { s with host := { s.host with stage := .result } }) ∧
  (∀ s : State, s.host.stage = .result → s.result ≠ 0x00 →
    s.programStep = { s with host := { s.host with stage := .returned s.result } }) ∧
  (∀ s : State, s.host.stage = .result → s.result = 0x00 →
    s.programStep = { s with host := { s.host with hpc := s.host.hpc + 1, last := 0x00, stage := .fetch } }) ∧
  (∀ s : State, s.host.stage = .fetch → s.host.lines[s.host.hpc]? = none →
    s.programStep = { s with host := { s.host with stage := .returned s.host.last } }) ∧
  (∀ (s : State) (r : Reg), s.host.stage = .fetch → s.host.lines[s.host.hpc]? = some (.read r) →
    s.programStep =
      { s with
        reads := s.reads ++ [s.hostRead r]
        host := { s.host with hpc := s.host.hpc + 1, stage := .fetch } })

/-- 43_composite.md R161 under ACK_ENV (20_memory.md R64): WRITE launches START, the address and the byte, returns 0x00
and leaves the transaction open, for every address and byte. The moves follow the eager order of log 7. -/
def Obligations.WriteLeavesTheTransactionOpen : Prop :=
  ∀ (s : State) (a : BitVec 7) (d : Byte) (rx : List Byte), s.eng = .idle → s.pend = none → s.enabled = true →
    s.quiescent = false → s.fault = none → s.turns = [] → s.env = .ack rx →
    s.host = { lines := writeLines a d, hpc := 0, last := 0x00, stage := .fetch } →
    ∃ k t, Sys2Proof.core.run k s = .next t ∧ t.finalWith 0x00 ∧ t.txnOpen = true ∧ t.ctrl = 0x84 ∧
      t.host.hpc = 3 ∧ phasesOf t.trace = phasesOf s.trace ++ [.start, .addr (slaByte a 0), .tx d]

/-- 43_composite.md R162 under ACK_ENV, the source's property of 95_test_vectors.md L1.5: WRITE_REG launches START, the
address, the register selector, every payload byte in order and STOP, and returns 0x00, for every address, selector
and payload of any length. The moves follow the eager order of log 7. -/
def Obligations.WriteRegSendsEveryByteAndStops : Prop :=
  ∀ (s : State) (a : BitVec 7) (reg : Byte) (payload rx : List Byte), s.eng = .idle → s.pend = none →
    s.enabled = true → s.quiescent = false → s.fault = none → s.turns = [] → s.env = .ack rx →
    s.host = { lines := writeRegLines a reg payload, hpc := 0, last := 0x00, stage := .fetch } →
    ∃ k t, Sys2Proof.core.run k s = .next t ∧ t.finalWith 0x00 ∧ t.txnOpen = false ∧ t.ctrl = 0x84 ∧
      t.maskedStatus = 0xF8 ∧ t.host.hpc = payload.length + 4 ∧
      phasesOf t.trace =
        phasesOf s.trace ++ [.start, .addr (slaByte a 0), .tx reg] ++ payload.map Phase.tx ++ [.stop]

/-- 43_composite.md R162, the source's property of 95_test_vectors.md L1.6: the first NACK ends WRITE_REG at any byte
position: no byte is sent after the one that was not acknowledged, the only later phase is the NACK path's STOP, and
the result is the NACK status, whichever NACK code the address met and however that STOP ends (60_exceptions.md R205).
`n` counts the acknowledged bytes of the selector and the payload. The moves follow the eager order of log 7, and the
script of outcomes, each one that the status draw allows, stands for the environment (log 8). -/
def Obligations.WriteRegStopsAtTheFirstNack : Prop :=
  (∀ (s : State) (a : BitVec 7) (reg : Byte) (payload : List Byte) (n : Nat) (stopOutcome : PhaseOutcome)
      (more : List PhaseOutcome),
    s.eng = .idle → s.pend = none → s.enabled = true → s.quiescent = false → s.fault = none → s.turns = [] →
    n ≤ payload.length → drawAllows s.params.statusDraw .stop stopOutcome.code = true →
    s.env = .script ([outcomeOf 0x08 0x00, outcomeOf 0x18 0x00] ++ List.replicate n (outcomeOf 0x28 0x00) ++
      [outcomeOf 0x30 0x00, stopOutcome] ++ more) →
    s.host = { lines := writeRegLines a reg payload, hpc := 0, last := 0x00, stage := .fetch } →
    ∃ k t, Sys2Proof.core.run k s = .next t ∧ t.finalWith 0x30 ∧ t.txnOpen = false ∧ t.env = .script more ∧
      t.maskedStatus = statusOfCode stopOutcome.code ∧
      t.ctrl = (if statusOfCode stopOutcome.code = 0xF8 then 0x84 else 0x44) ∧
      phasesOf t.trace =
        phasesOf s.trace ++ [.start, .addr (slaByte a 0)] ++ ((reg :: payload).take (n + 1)).map Phase.tx ++
          [.stop]) ∧
  (∀ (s : State) (a : BitVec 7) (reg : Byte) (payload : List Byte) (nack : Byte) (stopOutcome : PhaseOutcome)
      (more : List PhaseOutcome),
    s.eng = .idle → s.pend = none → s.enabled = true → s.quiescent = false → s.fault = none → s.turns = [] →
    (nack = 0x20 ∨ nack = 0x48) →
    drawAllows s.params.statusDraw (.addr (slaByte a 0)) (codeOfStatus nack) = true →
    drawAllows s.params.statusDraw .stop stopOutcome.code = true →
    s.env = .script ([outcomeOf 0x08 0x00, outcomeOf nack 0x00, stopOutcome] ++ more) →
    s.host = { lines := writeRegLines a reg payload, hpc := 0, last := 0x00, stage := .fetch } →
    ∃ k t, Sys2Proof.core.run k s = .next t ∧ t.finalWith nack ∧ t.txnOpen = false ∧ t.env = .script more ∧
      t.maskedStatus = statusOfCode stopOutcome.code ∧
      t.ctrl = (if statusOfCode stopOutcome.code = 0xF8 then 0x84 else 0x44) ∧
      phasesOf t.trace = phasesOf s.trace ++ [.start, .addr (slaByte a 0), .stop])
end

