-- ==== Sys2Proof/Laws/State.lean ====
section
/-! SUPPORT. One lemma for each field of State under each update of it, so that no later proof unfolds a record
update. -/

namespace Sys2Proof.Machine

variable (s : State)

/-! ### log (20_memory.md R65) -/

@[simp] theorem State.log_ctrl (e : Event) : (s.log e).ctrl = s.ctrl := rfl
@[simp] theorem State.log_status (e : Event) : (s.log e).status = s.status := rfl
@[simp] theorem State.log_data (e : Event) : (s.log e).data = s.data := rfl
@[simp] theorem State.log_bitrate (e : Event) : (s.log e).bitrate = s.bitrate := rfl
@[simp] theorem State.log_arg (e : Event) : (s.log e).arg = s.arg := rfl
@[simp] theorem State.log_result (e : Event) : (s.log e).result = s.result := rfl
@[simp] theorem State.log_speedSel (e : Event) : (s.log e).speedSel = s.speedSel := rfl
@[simp] theorem State.log_eng (e : Event) : (s.log e).eng = s.eng := rfl
@[simp] theorem State.log_pend (e : Event) : (s.log e).pend = s.pend := rfl
@[simp] theorem State.log_txnOpen (e : Event) : (s.log e).txnOpen = s.txnOpen := rfl
@[simp] theorem State.log_fault (e : Event) : (s.log e).fault = s.fault := rfl
@[simp] theorem State.log_trace (e : Event) : (s.log e).trace = s.trace ++ [e] := rfl
@[simp] theorem State.log_host (e : Event) : (s.log e).host = s.host := rfl
@[simp] theorem State.log_reads (e : Event) : (s.log e).reads = s.reads := rfl
@[simp] theorem State.log_params (e : Event) : (s.log e).params = s.params := rfl
@[simp] theorem State.log_quiescent (e : Event) : (s.log e).quiescent = s.quiescent := rfl
@[simp] theorem State.log_env (e : Event) : (s.log e).env = s.env := rfl
@[simp] theorem State.log_turns (e : Event) : (s.log e).turns = s.turns := rfl
@[simp] theorem State.log_tick (e : Event) : (s.log e).tick = s.tick := rfl

/-! ### ctrlWrite (20_memory.md R58) -/

@[simp] theorem State.ctrlWrite_ctrl (v : Byte) : (s.ctrlWrite v).ctrl = ctrlAfterWrite s.ctrl v := rfl
@[simp] theorem State.ctrlWrite_status (v : Byte) : (s.ctrlWrite v).status = s.status := rfl
@[simp] theorem State.ctrlWrite_data (v : Byte) : (s.ctrlWrite v).data = s.data := rfl
@[simp] theorem State.ctrlWrite_bitrate (v : Byte) : (s.ctrlWrite v).bitrate = s.bitrate := rfl
@[simp] theorem State.ctrlWrite_arg (v : Byte) : (s.ctrlWrite v).arg = s.arg := rfl
@[simp] theorem State.ctrlWrite_result (v : Byte) : (s.ctrlWrite v).result = s.result := rfl
@[simp] theorem State.ctrlWrite_speedSel (v : Byte) : (s.ctrlWrite v).speedSel = s.speedSel := rfl
@[simp] theorem State.ctrlWrite_eng (v : Byte) : (s.ctrlWrite v).eng = s.eng := rfl
@[simp] theorem State.ctrlWrite_pend (v : Byte) : (s.ctrlWrite v).pend = if ctrlEn v then s.pend else none := rfl
@[simp] theorem State.ctrlWrite_txnOpen (v : Byte) : (s.ctrlWrite v).txnOpen = s.txnOpen := rfl
@[simp] theorem State.ctrlWrite_fault (v : Byte) : (s.ctrlWrite v).fault = s.fault := rfl
@[simp] theorem State.ctrlWrite_trace (v : Byte) : (s.ctrlWrite v).trace = s.trace ++ [.cw v] := rfl
@[simp] theorem State.ctrlWrite_host (v : Byte) : (s.ctrlWrite v).host = s.host := rfl
@[simp] theorem State.ctrlWrite_reads (v : Byte) : (s.ctrlWrite v).reads = s.reads := rfl
@[simp] theorem State.ctrlWrite_params (v : Byte) : (s.ctrlWrite v).params = s.params := rfl
@[simp] theorem State.ctrlWrite_quiescent (v : Byte) : (s.ctrlWrite v).quiescent = s.quiescent := rfl
@[simp] theorem State.ctrlWrite_env (v : Byte) : (s.ctrlWrite v).env = s.env := rfl
@[simp] theorem State.ctrlWrite_turns (v : Byte) : (s.ctrlWrite v).turns = s.turns := rfl
@[simp] theorem State.ctrlWrite_tick (v : Byte) : (s.ctrlWrite v).tick = s.tick := rfl

/-! ### dataWrite (20_memory.md R58) -/

@[simp] theorem State.dataWrite_ctrl (b : Byte) : (s.dataWrite b).ctrl = s.ctrl := rfl
@[simp] theorem State.dataWrite_status (b : Byte) : (s.dataWrite b).status = s.status := rfl
@[simp] theorem State.dataWrite_data (b : Byte) : (s.dataWrite b).data = b := rfl
@[simp] theorem State.dataWrite_bitrate (b : Byte) : (s.dataWrite b).bitrate = s.bitrate := rfl
@[simp] theorem State.dataWrite_arg (b : Byte) : (s.dataWrite b).arg = s.arg := rfl
@[simp] theorem State.dataWrite_result (b : Byte) : (s.dataWrite b).result = s.result := rfl
@[simp] theorem State.dataWrite_speedSel (b : Byte) : (s.dataWrite b).speedSel = s.speedSel := rfl
@[simp] theorem State.dataWrite_eng (b : Byte) : (s.dataWrite b).eng = s.eng := rfl
@[simp] theorem State.dataWrite_pend (b : Byte) : (s.dataWrite b).pend = s.pend := rfl
@[simp] theorem State.dataWrite_txnOpen (b : Byte) : (s.dataWrite b).txnOpen = s.txnOpen := rfl
@[simp] theorem State.dataWrite_fault (b : Byte) : (s.dataWrite b).fault = s.fault := rfl
@[simp] theorem State.dataWrite_trace (b : Byte) : (s.dataWrite b).trace = s.trace ++ [.dw b] := rfl
@[simp] theorem State.dataWrite_host (b : Byte) : (s.dataWrite b).host = s.host := rfl
@[simp] theorem State.dataWrite_reads (b : Byte) : (s.dataWrite b).reads = s.reads := rfl
@[simp] theorem State.dataWrite_params (b : Byte) : (s.dataWrite b).params = s.params := rfl
@[simp] theorem State.dataWrite_quiescent (b : Byte) : (s.dataWrite b).quiescent = s.quiescent := rfl
@[simp] theorem State.dataWrite_env (b : Byte) : (s.dataWrite b).env = s.env := rfl
@[simp] theorem State.dataWrite_turns (b : Byte) : (s.dataWrite b).turns = s.turns := rfl
@[simp] theorem State.dataWrite_tick (b : Byte) : (s.dataWrite b).tick = s.tick := rfl

/-! ### launch (20_memory.md R59) -/

@[simp] theorem State.launch_ctrl (p : Phase) : (s.launch p).ctrl = s.ctrl := rfl
@[simp] theorem State.launch_status (p : Phase) : (s.launch p).status = s.status := rfl
@[simp] theorem State.launch_data (p : Phase) : (s.launch p).data = s.data := rfl
@[simp] theorem State.launch_bitrate (p : Phase) : (s.launch p).bitrate = s.bitrate := rfl
@[simp] theorem State.launch_arg (p : Phase) : (s.launch p).arg = s.arg := rfl
@[simp] theorem State.launch_result (p : Phase) : (s.launch p).result = s.result := rfl
@[simp] theorem State.launch_speedSel (p : Phase) : (s.launch p).speedSel = s.speedSel := rfl
@[simp] theorem State.launch_eng (p : Phase) : (s.launch p).eng = s.eng := rfl
@[simp] theorem State.launch_pend (p : Phase) : (s.launch p).pend = some p := rfl
@[simp] theorem State.launch_txnOpen (p : Phase) : (s.launch p).txnOpen = s.txnOpen := rfl
@[simp] theorem State.launch_fault (p : Phase) : (s.launch p).fault = s.fault := rfl
@[simp] theorem State.launch_trace (p : Phase) : (s.launch p).trace = s.trace ++ [.ph p] := rfl
@[simp] theorem State.launch_host (p : Phase) : (s.launch p).host = s.host := rfl
@[simp] theorem State.launch_reads (p : Phase) : (s.launch p).reads = s.reads := rfl
@[simp] theorem State.launch_params (p : Phase) : (s.launch p).params = s.params := rfl
@[simp] theorem State.launch_quiescent (p : Phase) : (s.launch p).quiescent = s.quiescent := rfl
@[simp] theorem State.launch_env (p : Phase) : (s.launch p).env = s.env := rfl
@[simp] theorem State.launch_turns (p : Phase) : (s.launch p).turns = s.turns := rfl
@[simp] theorem State.launch_tick (p : Phase) : (s.launch p).tick = s.tick := rfl

/-! ### completePhase (20_memory.md R60) -/

@[simp] theorem State.completePhase_ctrl (p : Phase) (o : PhaseOutcome) : (s.completePhase p o).ctrl = ctrlAfterCompletion s.ctrl := rfl
@[simp] theorem State.completePhase_status (p : Phase) (o : PhaseOutcome) : (s.completePhase p o).status = statusWithCode s.status o.code := rfl
@[simp] theorem State.completePhase_data (p : Phase) (o : PhaseOutcome) : (s.completePhase p o).data = if p.isRx then o.byte else s.data := rfl
@[simp] theorem State.completePhase_bitrate (p : Phase) (o : PhaseOutcome) : (s.completePhase p o).bitrate = s.bitrate := rfl
@[simp] theorem State.completePhase_arg (p : Phase) (o : PhaseOutcome) : (s.completePhase p o).arg = s.arg := rfl
@[simp] theorem State.completePhase_result (p : Phase) (o : PhaseOutcome) : (s.completePhase p o).result = s.result := rfl
@[simp] theorem State.completePhase_speedSel (p : Phase) (o : PhaseOutcome) : (s.completePhase p o).speedSel = s.speedSel := rfl
@[simp] theorem State.completePhase_eng (p : Phase) (o : PhaseOutcome) : (s.completePhase p o).eng = s.eng := rfl
@[simp] theorem State.completePhase_pend (p : Phase) (o : PhaseOutcome) : (s.completePhase p o).pend = none := rfl
@[simp] theorem State.completePhase_txnOpen (p : Phase) (o : PhaseOutcome) : (s.completePhase p o).txnOpen = s.txnOpen := rfl
@[simp] theorem State.completePhase_fault (p : Phase) (o : PhaseOutcome) : (s.completePhase p o).fault = s.fault := rfl
@[simp] theorem State.completePhase_trace (p : Phase) (o : PhaseOutcome) : (s.completePhase p o).trace = s.trace ++ [.oc (statusOfCode o.code) (if p.isRx then some o.byte else none)] := rfl
@[simp] theorem State.completePhase_host (p : Phase) (o : PhaseOutcome) : (s.completePhase p o).host = s.host := rfl
@[simp] theorem State.completePhase_reads (p : Phase) (o : PhaseOutcome) : (s.completePhase p o).reads = s.reads := rfl
@[simp] theorem State.completePhase_params (p : Phase) (o : PhaseOutcome) : (s.completePhase p o).params = s.params := rfl
@[simp] theorem State.completePhase_quiescent (p : Phase) (o : PhaseOutcome) : (s.completePhase p o).quiescent = s.quiescent := rfl
@[simp] theorem State.completePhase_env (p : Phase) (o : PhaseOutcome) : (s.completePhase p o).env = s.env := rfl
@[simp] theorem State.completePhase_turns (p : Phase) (o : PhaseOutcome) : (s.completePhase p o).turns = s.turns := rfl
@[simp] theorem State.completePhase_tick (p : Phase) (o : PhaseOutcome) : (s.completePhase p o).tick = s.tick := rfl

/-! ### hold (10_state.md R30) -/

@[simp] theorem State.hold_ctrl (e : Eng) : (s.hold e).ctrl = s.ctrl := rfl
@[simp] theorem State.hold_status (e : Eng) : (s.hold e).status = s.status := rfl
@[simp] theorem State.hold_data (e : Eng) : (s.hold e).data = s.data := rfl
@[simp] theorem State.hold_bitrate (e : Eng) : (s.hold e).bitrate = s.bitrate := rfl
@[simp] theorem State.hold_arg (e : Eng) : (s.hold e).arg = s.arg := rfl
@[simp] theorem State.hold_result (e : Eng) : (s.hold e).result = s.result := rfl
@[simp] theorem State.hold_speedSel (e : Eng) : (s.hold e).speedSel = s.speedSel := rfl
@[simp] theorem State.hold_eng (e : Eng) : (s.hold e).eng = e := rfl
@[simp] theorem State.hold_pend (e : Eng) : (s.hold e).pend = s.pend := rfl
@[simp] theorem State.hold_txnOpen (e : Eng) : (s.hold e).txnOpen = s.txnOpen := rfl
@[simp] theorem State.hold_fault (e : Eng) : (s.hold e).fault = s.fault := rfl
@[simp] theorem State.hold_trace (e : Eng) : (s.hold e).trace = s.trace := rfl
@[simp] theorem State.hold_host (e : Eng) : (s.hold e).host = s.host := rfl
@[simp] theorem State.hold_reads (e : Eng) : (s.hold e).reads = s.reads := rfl
@[simp] theorem State.hold_params (e : Eng) : (s.hold e).params = s.params := rfl
@[simp] theorem State.hold_quiescent (e : Eng) : (s.hold e).quiescent = s.quiescent := rfl
@[simp] theorem State.hold_env (e : Eng) : (s.hold e).env = s.env := rfl
@[simp] theorem State.hold_turns (e : Eng) : (s.hold e).turns = s.turns := rfl
@[simp] theorem State.hold_tick (e : Eng) : (s.hold e).tick = s.tick := rfl

/-! ### finish (60_exceptions.md R203) -/

@[simp] theorem State.finish_ctrl (r : Byte) : (s.finish r).ctrl = s.ctrl := rfl
@[simp] theorem State.finish_status (r : Byte) : (s.finish r).status = s.status := rfl
@[simp] theorem State.finish_data (r : Byte) : (s.finish r).data = s.data := rfl
@[simp] theorem State.finish_bitrate (r : Byte) : (s.finish r).bitrate = s.bitrate := rfl
@[simp] theorem State.finish_arg (r : Byte) : (s.finish r).arg = s.arg := rfl
@[simp] theorem State.finish_result (r : Byte) : (s.finish r).result = r := rfl
@[simp] theorem State.finish_speedSel (r : Byte) : (s.finish r).speedSel = s.speedSel := rfl
@[simp] theorem State.finish_eng (r : Byte) : (s.finish r).eng = .idle := rfl
@[simp] theorem State.finish_pend (r : Byte) : (s.finish r).pend = s.pend := rfl
@[simp] theorem State.finish_txnOpen (r : Byte) : (s.finish r).txnOpen = s.txnOpen := rfl
@[simp] theorem State.finish_fault (r : Byte) : (s.finish r).fault = s.fault := rfl
@[simp] theorem State.finish_trace (r : Byte) : (s.finish r).trace = s.trace ++ [.res r] := rfl
@[simp] theorem State.finish_host (r : Byte) : (s.finish r).host = s.host := rfl
@[simp] theorem State.finish_reads (r : Byte) : (s.finish r).reads = s.reads := rfl
@[simp] theorem State.finish_params (r : Byte) : (s.finish r).params = s.params := rfl
@[simp] theorem State.finish_quiescent (r : Byte) : (s.finish r).quiescent = s.quiescent := rfl
@[simp] theorem State.finish_env (r : Byte) : (s.finish r).env = s.env := rfl
@[simp] theorem State.finish_turns (r : Byte) : (s.finish r).turns = s.turns := rfl
@[simp] theorem State.finish_tick (r : Byte) : (s.finish r).tick = s.tick := rfl

/-! ### setTxnOpen (10_state.md R31) -/

@[simp] theorem State.setTxnOpen_ctrl (b : Bool) : (s.setTxnOpen b).ctrl = s.ctrl := rfl
@[simp] theorem State.setTxnOpen_status (b : Bool) : (s.setTxnOpen b).status = s.status := rfl
@[simp] theorem State.setTxnOpen_data (b : Bool) : (s.setTxnOpen b).data = s.data := rfl
@[simp] theorem State.setTxnOpen_bitrate (b : Bool) : (s.setTxnOpen b).bitrate = s.bitrate := rfl
@[simp] theorem State.setTxnOpen_arg (b : Bool) : (s.setTxnOpen b).arg = s.arg := rfl
@[simp] theorem State.setTxnOpen_result (b : Bool) : (s.setTxnOpen b).result = s.result := rfl
@[simp] theorem State.setTxnOpen_speedSel (b : Bool) : (s.setTxnOpen b).speedSel = s.speedSel := rfl
@[simp] theorem State.setTxnOpen_eng (b : Bool) : (s.setTxnOpen b).eng = s.eng := rfl
@[simp] theorem State.setTxnOpen_pend (b : Bool) : (s.setTxnOpen b).pend = s.pend := rfl
@[simp] theorem State.setTxnOpen_txnOpen (b : Bool) : (s.setTxnOpen b).txnOpen = b := rfl
@[simp] theorem State.setTxnOpen_fault (b : Bool) : (s.setTxnOpen b).fault = s.fault := rfl
@[simp] theorem State.setTxnOpen_trace (b : Bool) : (s.setTxnOpen b).trace = s.trace := rfl
@[simp] theorem State.setTxnOpen_host (b : Bool) : (s.setTxnOpen b).host = s.host := rfl
@[simp] theorem State.setTxnOpen_reads (b : Bool) : (s.setTxnOpen b).reads = s.reads := rfl
@[simp] theorem State.setTxnOpen_params (b : Bool) : (s.setTxnOpen b).params = s.params := rfl
@[simp] theorem State.setTxnOpen_quiescent (b : Bool) : (s.setTxnOpen b).quiescent = s.quiescent := rfl
@[simp] theorem State.setTxnOpen_env (b : Bool) : (s.setTxnOpen b).env = s.env := rfl
@[simp] theorem State.setTxnOpen_turns (b : Bool) : (s.setTxnOpen b).turns = s.turns := rfl
@[simp] theorem State.setTxnOpen_tick (b : Bool) : (s.setTxnOpen b).tick = s.tick := rfl

/-! ### raiseFault (60_exceptions.md R209) -/

@[simp] theorem State.raiseFault_ctrl (r : FaultReason) : (s.raiseFault r).ctrl = s.ctrl := rfl
@[simp] theorem State.raiseFault_status (r : FaultReason) : (s.raiseFault r).status = s.status := rfl
@[simp] theorem State.raiseFault_data (r : FaultReason) : (s.raiseFault r).data = s.data := rfl
@[simp] theorem State.raiseFault_bitrate (r : FaultReason) : (s.raiseFault r).bitrate = s.bitrate := rfl
@[simp] theorem State.raiseFault_arg (r : FaultReason) : (s.raiseFault r).arg = s.arg := rfl
@[simp] theorem State.raiseFault_result (r : FaultReason) : (s.raiseFault r).result = s.result := rfl
@[simp] theorem State.raiseFault_speedSel (r : FaultReason) : (s.raiseFault r).speedSel = s.speedSel := rfl
@[simp] theorem State.raiseFault_eng (r : FaultReason) : (s.raiseFault r).eng = s.eng := rfl
@[simp] theorem State.raiseFault_pend (r : FaultReason) : (s.raiseFault r).pend = s.pend := rfl
@[simp] theorem State.raiseFault_txnOpen (r : FaultReason) : (s.raiseFault r).txnOpen = s.txnOpen := rfl
@[simp] theorem State.raiseFault_fault (r : FaultReason) : (s.raiseFault r).fault = some r := rfl
@[simp] theorem State.raiseFault_trace (r : FaultReason) : (s.raiseFault r).trace = s.trace := rfl
@[simp] theorem State.raiseFault_host (r : FaultReason) : (s.raiseFault r).host = s.host := rfl
@[simp] theorem State.raiseFault_reads (r : FaultReason) : (s.raiseFault r).reads = s.reads := rfl
@[simp] theorem State.raiseFault_params (r : FaultReason) : (s.raiseFault r).params = s.params := rfl
@[simp] theorem State.raiseFault_quiescent (r : FaultReason) : (s.raiseFault r).quiescent = true := rfl
@[simp] theorem State.raiseFault_env (r : FaultReason) : (s.raiseFault r).env = s.env := rfl
@[simp] theorem State.raiseFault_turns (r : FaultReason) : (s.raiseFault r).turns = s.turns := rfl
@[simp] theorem State.raiseFault_tick (r : FaultReason) : (s.raiseFault r).tick = s.tick := rfl

/-! ### accept (20_memory.md R52) -/

@[simp] theorem State.accept_ctrl (op : Byte) (c : Instr) : (s.accept op c).ctrl = s.ctrl := rfl
@[simp] theorem State.accept_status (op : Byte) (c : Instr) : (s.accept op c).status = s.status := rfl
@[simp] theorem State.accept_data (op : Byte) (c : Instr) : (s.accept op c).data = s.data := rfl
@[simp] theorem State.accept_bitrate (op : Byte) (c : Instr) : (s.accept op c).bitrate = s.bitrate := rfl
@[simp] theorem State.accept_arg (op : Byte) (c : Instr) : (s.accept op c).arg = s.arg := rfl
@[simp] theorem State.accept_result (op : Byte) (c : Instr) : (s.accept op c).result = s.result := rfl
@[simp] theorem State.accept_speedSel (op : Byte) (c : Instr) : (s.accept op c).speedSel = s.speedSel := rfl
@[simp] theorem State.accept_eng (op : Byte) (c : Instr) : (s.accept op c).eng = .issued c := rfl
@[simp] theorem State.accept_pend (op : Byte) (c : Instr) : (s.accept op c).pend = s.pend := rfl
@[simp] theorem State.accept_txnOpen (op : Byte) (c : Instr) : (s.accept op c).txnOpen = s.txnOpen := rfl
@[simp] theorem State.accept_fault (op : Byte) (c : Instr) : (s.accept op c).fault = s.fault := rfl
@[simp] theorem State.accept_trace (op : Byte) (c : Instr) : (s.accept op c).trace = s.trace ++ [.issue op s.arg] := rfl
@[simp] theorem State.accept_host (op : Byte) (c : Instr) : (s.accept op c).host = s.host := rfl
@[simp] theorem State.accept_reads (op : Byte) (c : Instr) : (s.accept op c).reads = s.reads := rfl
@[simp] theorem State.accept_params (op : Byte) (c : Instr) : (s.accept op c).params = s.params := rfl
@[simp] theorem State.accept_quiescent (op : Byte) (c : Instr) : (s.accept op c).quiescent = s.quiescent := rfl
@[simp] theorem State.accept_env (op : Byte) (c : Instr) : (s.accept op c).env = s.env := rfl
@[simp] theorem State.accept_turns (op : Byte) (c : Instr) : (s.accept op c).turns = s.turns := rfl
@[simp] theorem State.accept_tick (op : Byte) (c : Instr) : (s.accept op c).tick = s.tick := rfl

/-! ### setArg (10_state.md R25) -/

@[simp] theorem State.setArg_ctrl (v : Byte) : (s.setArg v).ctrl = s.ctrl := rfl
@[simp] theorem State.setArg_status (v : Byte) : (s.setArg v).status = s.status := rfl
@[simp] theorem State.setArg_data (v : Byte) : (s.setArg v).data = s.data := rfl
@[simp] theorem State.setArg_bitrate (v : Byte) : (s.setArg v).bitrate = s.bitrate := rfl
@[simp] theorem State.setArg_arg (v : Byte) : (s.setArg v).arg = v := rfl
@[simp] theorem State.setArg_result (v : Byte) : (s.setArg v).result = s.result := rfl
@[simp] theorem State.setArg_speedSel (v : Byte) : (s.setArg v).speedSel = s.speedSel := rfl
@[simp] theorem State.setArg_eng (v : Byte) : (s.setArg v).eng = s.eng := rfl
@[simp] theorem State.setArg_pend (v : Byte) : (s.setArg v).pend = s.pend := rfl
@[simp] theorem State.setArg_txnOpen (v : Byte) : (s.setArg v).txnOpen = s.txnOpen := rfl
@[simp] theorem State.setArg_fault (v : Byte) : (s.setArg v).fault = s.fault := rfl
@[simp] theorem State.setArg_trace (v : Byte) : (s.setArg v).trace = s.trace := rfl
@[simp] theorem State.setArg_host (v : Byte) : (s.setArg v).host = s.host := rfl
@[simp] theorem State.setArg_reads (v : Byte) : (s.setArg v).reads = s.reads := rfl
@[simp] theorem State.setArg_params (v : Byte) : (s.setArg v).params = s.params := rfl
@[simp] theorem State.setArg_quiescent (v : Byte) : (s.setArg v).quiescent = s.quiescent := rfl
@[simp] theorem State.setArg_env (v : Byte) : (s.setArg v).env = s.env := rfl
@[simp] theorem State.setArg_turns (v : Byte) : (s.setArg v).turns = s.turns := rfl
@[simp] theorem State.setArg_tick (v : Byte) : (s.setArg v).tick = s.tick := rfl

/-! ### noteRead (43_composite.md R160) -/

@[simp] theorem State.noteRead_ctrl (v : Byte) : (s.noteRead v).ctrl = s.ctrl := rfl
@[simp] theorem State.noteRead_status (v : Byte) : (s.noteRead v).status = s.status := rfl
@[simp] theorem State.noteRead_data (v : Byte) : (s.noteRead v).data = s.data := rfl
@[simp] theorem State.noteRead_bitrate (v : Byte) : (s.noteRead v).bitrate = s.bitrate := rfl
@[simp] theorem State.noteRead_arg (v : Byte) : (s.noteRead v).arg = s.arg := rfl
@[simp] theorem State.noteRead_result (v : Byte) : (s.noteRead v).result = s.result := rfl
@[simp] theorem State.noteRead_speedSel (v : Byte) : (s.noteRead v).speedSel = s.speedSel := rfl
@[simp] theorem State.noteRead_eng (v : Byte) : (s.noteRead v).eng = s.eng := rfl
@[simp] theorem State.noteRead_pend (v : Byte) : (s.noteRead v).pend = s.pend := rfl
@[simp] theorem State.noteRead_txnOpen (v : Byte) : (s.noteRead v).txnOpen = s.txnOpen := rfl
@[simp] theorem State.noteRead_fault (v : Byte) : (s.noteRead v).fault = s.fault := rfl
@[simp] theorem State.noteRead_trace (v : Byte) : (s.noteRead v).trace = s.trace := rfl
@[simp] theorem State.noteRead_host (v : Byte) : (s.noteRead v).host = s.host := rfl
@[simp] theorem State.noteRead_reads (v : Byte) : (s.noteRead v).reads = s.reads ++ [v] := rfl
@[simp] theorem State.noteRead_params (v : Byte) : (s.noteRead v).params = s.params := rfl
@[simp] theorem State.noteRead_quiescent (v : Byte) : (s.noteRead v).quiescent = s.quiescent := rfl
@[simp] theorem State.noteRead_env (v : Byte) : (s.noteRead v).env = s.env := rfl
@[simp] theorem State.noteRead_turns (v : Byte) : (s.noteRead v).turns = s.turns := rfl
@[simp] theorem State.noteRead_tick (v : Byte) : (s.noteRead v).tick = s.tick := rfl

/-! ### resetAct (70_reset_and_hazards.md R240) -/

@[simp] theorem State.resetAct_ctrl : s.resetAct.ctrl = 0x00 := rfl
@[simp] theorem State.resetAct_status : s.resetAct.status = 0xF8 := rfl
@[simp] theorem State.resetAct_data : s.resetAct.data = 0xFF := rfl
@[simp] theorem State.resetAct_bitrate : s.resetAct.bitrate = 0x00 := rfl
@[simp] theorem State.resetAct_arg : s.resetAct.arg = 0x00 := rfl
@[simp] theorem State.resetAct_result : s.resetAct.result = 0x00 := rfl
@[simp] theorem State.resetAct_speedSel : s.resetAct.speedSel = .low := rfl
@[simp] theorem State.resetAct_eng : s.resetAct.eng = .idle := rfl
@[simp] theorem State.resetAct_pend : s.resetAct.pend = none := rfl
@[simp] theorem State.resetAct_txnOpen : s.resetAct.txnOpen = false := rfl
@[simp] theorem State.resetAct_fault : s.resetAct.fault = s.fault := rfl
@[simp] theorem State.resetAct_trace : s.resetAct.trace = s.trace ++ [.rst] := rfl
@[simp] theorem State.resetAct_host : s.resetAct.host = HostRun.absent := rfl
@[simp] theorem State.resetAct_reads : s.resetAct.reads = s.reads := rfl
@[simp] theorem State.resetAct_params : s.resetAct.params = s.params := rfl
@[simp] theorem State.resetAct_quiescent : s.resetAct.quiescent = false := rfl
@[simp] theorem State.resetAct_env : s.resetAct.env = s.env := rfl
@[simp] theorem State.resetAct_turns : s.resetAct.turns = s.turns := rfl
@[simp] theorem State.resetAct_tick : s.resetAct.tick = s.tick := rfl

/-! ### setPrescaler1 (40_config.md R101) -/

@[simp] theorem State.setPrescaler1_ctrl : s.setPrescaler1.ctrl = s.ctrl := rfl
@[simp] theorem State.setPrescaler1_status : s.setPrescaler1.status = statusWithPrescaler1 s.status := rfl
@[simp] theorem State.setPrescaler1_data : s.setPrescaler1.data = s.data := rfl
@[simp] theorem State.setPrescaler1_bitrate : s.setPrescaler1.bitrate = s.bitrate := rfl
@[simp] theorem State.setPrescaler1_arg : s.setPrescaler1.arg = s.arg := rfl
@[simp] theorem State.setPrescaler1_result : s.setPrescaler1.result = s.result := rfl
@[simp] theorem State.setPrescaler1_speedSel : s.setPrescaler1.speedSel = s.speedSel := rfl
@[simp] theorem State.setPrescaler1_eng : s.setPrescaler1.eng = s.eng := rfl
@[simp] theorem State.setPrescaler1_pend : s.setPrescaler1.pend = s.pend := rfl
@[simp] theorem State.setPrescaler1_txnOpen : s.setPrescaler1.txnOpen = s.txnOpen := rfl
@[simp] theorem State.setPrescaler1_fault : s.setPrescaler1.fault = s.fault := rfl
@[simp] theorem State.setPrescaler1_trace : s.setPrescaler1.trace = s.trace := rfl
@[simp] theorem State.setPrescaler1_host : s.setPrescaler1.host = s.host := rfl
@[simp] theorem State.setPrescaler1_reads : s.setPrescaler1.reads = s.reads := rfl
@[simp] theorem State.setPrescaler1_params : s.setPrescaler1.params = s.params := rfl
@[simp] theorem State.setPrescaler1_quiescent : s.setPrescaler1.quiescent = s.quiescent := rfl
@[simp] theorem State.setPrescaler1_env : s.setPrescaler1.env = s.env := rfl
@[simp] theorem State.setPrescaler1_turns : s.setPrescaler1.turns = s.turns := rfl
@[simp] theorem State.setPrescaler1_tick : s.setPrescaler1.tick = s.tick := rfl

/-! ### setBitrate (40_config.md R100) -/

@[simp] theorem State.setBitrate_ctrl (v : Speed) : (s.setBitrate v).ctrl = s.ctrl := rfl
@[simp] theorem State.setBitrate_status (v : Speed) : (s.setBitrate v).status = s.status := rfl
@[simp] theorem State.setBitrate_data (v : Speed) : (s.setBitrate v).data = s.data := rfl
@[simp] theorem State.setBitrate_bitrate (v : Speed) : (s.setBitrate v).bitrate = s.params.bitRateOf v := rfl
@[simp] theorem State.setBitrate_arg (v : Speed) : (s.setBitrate v).arg = s.arg := rfl
@[simp] theorem State.setBitrate_result (v : Speed) : (s.setBitrate v).result = s.result := rfl
@[simp] theorem State.setBitrate_speedSel (v : Speed) : (s.setBitrate v).speedSel = s.speedSel := rfl
@[simp] theorem State.setBitrate_eng (v : Speed) : (s.setBitrate v).eng = s.eng := rfl
@[simp] theorem State.setBitrate_pend (v : Speed) : (s.setBitrate v).pend = s.pend := rfl
@[simp] theorem State.setBitrate_txnOpen (v : Speed) : (s.setBitrate v).txnOpen = s.txnOpen := rfl
@[simp] theorem State.setBitrate_fault (v : Speed) : (s.setBitrate v).fault = s.fault := rfl
@[simp] theorem State.setBitrate_trace (v : Speed) : (s.setBitrate v).trace = s.trace := rfl
@[simp] theorem State.setBitrate_host (v : Speed) : (s.setBitrate v).host = s.host := rfl
@[simp] theorem State.setBitrate_reads (v : Speed) : (s.setBitrate v).reads = s.reads := rfl
@[simp] theorem State.setBitrate_params (v : Speed) : (s.setBitrate v).params = s.params := rfl
@[simp] theorem State.setBitrate_quiescent (v : Speed) : (s.setBitrate v).quiescent = s.quiescent := rfl
@[simp] theorem State.setBitrate_env (v : Speed) : (s.setBitrate v).env = s.env := rfl
@[simp] theorem State.setBitrate_turns (v : Speed) : (s.setBitrate v).turns = s.turns := rfl
@[simp] theorem State.setBitrate_tick (v : Speed) : (s.setBitrate v).tick = s.tick := rfl

/-! ### setSpeed (10_state.md R29) -/

@[simp] theorem State.setSpeed_ctrl (v : Speed) : (s.setSpeed v).ctrl = s.ctrl := rfl
@[simp] theorem State.setSpeed_status (v : Speed) : (s.setSpeed v).status = s.status := rfl
@[simp] theorem State.setSpeed_data (v : Speed) : (s.setSpeed v).data = s.data := rfl
@[simp] theorem State.setSpeed_bitrate (v : Speed) : (s.setSpeed v).bitrate = s.bitrate := rfl
@[simp] theorem State.setSpeed_arg (v : Speed) : (s.setSpeed v).arg = s.arg := rfl
@[simp] theorem State.setSpeed_result (v : Speed) : (s.setSpeed v).result = s.result := rfl
@[simp] theorem State.setSpeed_speedSel (v : Speed) : (s.setSpeed v).speedSel = v := rfl
@[simp] theorem State.setSpeed_eng (v : Speed) : (s.setSpeed v).eng = s.eng := rfl
@[simp] theorem State.setSpeed_pend (v : Speed) : (s.setSpeed v).pend = s.pend := rfl
@[simp] theorem State.setSpeed_txnOpen (v : Speed) : (s.setSpeed v).txnOpen = s.txnOpen := rfl
@[simp] theorem State.setSpeed_fault (v : Speed) : (s.setSpeed v).fault = s.fault := rfl
@[simp] theorem State.setSpeed_trace (v : Speed) : (s.setSpeed v).trace = s.trace := rfl
@[simp] theorem State.setSpeed_host (v : Speed) : (s.setSpeed v).host = s.host := rfl
@[simp] theorem State.setSpeed_reads (v : Speed) : (s.setSpeed v).reads = s.reads := rfl
@[simp] theorem State.setSpeed_params (v : Speed) : (s.setSpeed v).params = s.params := rfl
@[simp] theorem State.setSpeed_quiescent (v : Speed) : (s.setSpeed v).quiescent = s.quiescent := rfl
@[simp] theorem State.setSpeed_env (v : Speed) : (s.setSpeed v).env = s.env := rfl
@[simp] theorem State.setSpeed_turns (v : Speed) : (s.setSpeed v).turns = s.turns := rfl
@[simp] theorem State.setSpeed_tick (v : Speed) : (s.setSpeed v).tick = s.tick := rfl

/-! ### setEnv (the model's own) -/

@[simp] theorem State.setEnv_ctrl (e : Env) : (s.setEnv e).ctrl = s.ctrl := rfl
@[simp] theorem State.setEnv_status (e : Env) : (s.setEnv e).status = s.status := rfl
@[simp] theorem State.setEnv_data (e : Env) : (s.setEnv e).data = s.data := rfl
@[simp] theorem State.setEnv_bitrate (e : Env) : (s.setEnv e).bitrate = s.bitrate := rfl
@[simp] theorem State.setEnv_arg (e : Env) : (s.setEnv e).arg = s.arg := rfl
@[simp] theorem State.setEnv_result (e : Env) : (s.setEnv e).result = s.result := rfl
@[simp] theorem State.setEnv_speedSel (e : Env) : (s.setEnv e).speedSel = s.speedSel := rfl
@[simp] theorem State.setEnv_eng (e : Env) : (s.setEnv e).eng = s.eng := rfl
@[simp] theorem State.setEnv_pend (e : Env) : (s.setEnv e).pend = s.pend := rfl
@[simp] theorem State.setEnv_txnOpen (e : Env) : (s.setEnv e).txnOpen = s.txnOpen := rfl
@[simp] theorem State.setEnv_fault (e : Env) : (s.setEnv e).fault = s.fault := rfl
@[simp] theorem State.setEnv_trace (e : Env) : (s.setEnv e).trace = s.trace := rfl
@[simp] theorem State.setEnv_host (e : Env) : (s.setEnv e).host = s.host := rfl
@[simp] theorem State.setEnv_reads (e : Env) : (s.setEnv e).reads = s.reads := rfl
@[simp] theorem State.setEnv_params (e : Env) : (s.setEnv e).params = s.params := rfl
@[simp] theorem State.setEnv_quiescent (e : Env) : (s.setEnv e).quiescent = s.quiescent := rfl
@[simp] theorem State.setEnv_env (e : Env) : (s.setEnv e).env = e := rfl
@[simp] theorem State.setEnv_turns (e : Env) : (s.setEnv e).turns = s.turns := rfl
@[simp] theorem State.setEnv_tick (e : Env) : (s.setEnv e).tick = s.tick := rfl

/-! ### nextTick (the model's own) -/

@[simp] theorem State.nextTick_ctrl : s.nextTick.ctrl = s.ctrl := rfl
@[simp] theorem State.nextTick_status : s.nextTick.status = s.status := rfl
@[simp] theorem State.nextTick_data : s.nextTick.data = s.data := rfl
@[simp] theorem State.nextTick_bitrate : s.nextTick.bitrate = s.bitrate := rfl
@[simp] theorem State.nextTick_arg : s.nextTick.arg = s.arg := rfl
@[simp] theorem State.nextTick_result : s.nextTick.result = s.result := rfl
@[simp] theorem State.nextTick_speedSel : s.nextTick.speedSel = s.speedSel := rfl
@[simp] theorem State.nextTick_eng : s.nextTick.eng = s.eng := rfl
@[simp] theorem State.nextTick_pend : s.nextTick.pend = s.pend := rfl
@[simp] theorem State.nextTick_txnOpen : s.nextTick.txnOpen = s.txnOpen := rfl
@[simp] theorem State.nextTick_fault : s.nextTick.fault = s.fault := rfl
@[simp] theorem State.nextTick_trace : s.nextTick.trace = s.trace := rfl
@[simp] theorem State.nextTick_host : s.nextTick.host = s.host := rfl
@[simp] theorem State.nextTick_reads : s.nextTick.reads = s.reads := rfl
@[simp] theorem State.nextTick_params : s.nextTick.params = s.params := rfl
@[simp] theorem State.nextTick_quiescent : s.nextTick.quiescent = s.quiescent := rfl
@[simp] theorem State.nextTick_env : s.nextTick.env = s.env := rfl
@[simp] theorem State.nextTick_turns : s.nextTick.turns = s.turns := rfl
@[simp] theorem State.nextTick_tick : s.nextTick.tick = s.tick + 1 := rfl

/-! ### setHost (43_composite.md R160) -/

@[simp] theorem State.setHost_ctrl (h : HostRun) : (s.setHost h).ctrl = s.ctrl := rfl
@[simp] theorem State.setHost_status (h : HostRun) : (s.setHost h).status = s.status := rfl
@[simp] theorem State.setHost_data (h : HostRun) : (s.setHost h).data = s.data := rfl
@[simp] theorem State.setHost_bitrate (h : HostRun) : (s.setHost h).bitrate = s.bitrate := rfl
@[simp] theorem State.setHost_arg (h : HostRun) : (s.setHost h).arg = s.arg := rfl
@[simp] theorem State.setHost_result (h : HostRun) : (s.setHost h).result = s.result := rfl
@[simp] theorem State.setHost_speedSel (h : HostRun) : (s.setHost h).speedSel = s.speedSel := rfl
@[simp] theorem State.setHost_eng (h : HostRun) : (s.setHost h).eng = s.eng := rfl
@[simp] theorem State.setHost_pend (h : HostRun) : (s.setHost h).pend = s.pend := rfl
@[simp] theorem State.setHost_txnOpen (h : HostRun) : (s.setHost h).txnOpen = s.txnOpen := rfl
@[simp] theorem State.setHost_fault (h : HostRun) : (s.setHost h).fault = s.fault := rfl
@[simp] theorem State.setHost_trace (h : HostRun) : (s.setHost h).trace = s.trace := rfl
@[simp] theorem State.setHost_host (h : HostRun) : (s.setHost h).host = h := rfl
@[simp] theorem State.setHost_reads (h : HostRun) : (s.setHost h).reads = s.reads := rfl
@[simp] theorem State.setHost_params (h : HostRun) : (s.setHost h).params = s.params := rfl
@[simp] theorem State.setHost_quiescent (h : HostRun) : (s.setHost h).quiescent = s.quiescent := rfl
@[simp] theorem State.setHost_env (h : HostRun) : (s.setHost h).env = s.env := rfl
@[simp] theorem State.setHost_turns (h : HostRun) : (s.setHost h).turns = s.turns := rfl
@[simp] theorem State.setHost_tick (h : HostRun) : (s.setHost h).tick = s.tick := rfl

/-! ### setTurns (the model's own) -/

@[simp] theorem State.setTurns_ctrl (ts : List Turn) : (s.setTurns ts).ctrl = s.ctrl := rfl
@[simp] theorem State.setTurns_status (ts : List Turn) : (s.setTurns ts).status = s.status := rfl
@[simp] theorem State.setTurns_data (ts : List Turn) : (s.setTurns ts).data = s.data := rfl
@[simp] theorem State.setTurns_bitrate (ts : List Turn) : (s.setTurns ts).bitrate = s.bitrate := rfl
@[simp] theorem State.setTurns_arg (ts : List Turn) : (s.setTurns ts).arg = s.arg := rfl
@[simp] theorem State.setTurns_result (ts : List Turn) : (s.setTurns ts).result = s.result := rfl
@[simp] theorem State.setTurns_speedSel (ts : List Turn) : (s.setTurns ts).speedSel = s.speedSel := rfl
@[simp] theorem State.setTurns_eng (ts : List Turn) : (s.setTurns ts).eng = s.eng := rfl
@[simp] theorem State.setTurns_pend (ts : List Turn) : (s.setTurns ts).pend = s.pend := rfl
@[simp] theorem State.setTurns_txnOpen (ts : List Turn) : (s.setTurns ts).txnOpen = s.txnOpen := rfl
@[simp] theorem State.setTurns_fault (ts : List Turn) : (s.setTurns ts).fault = s.fault := rfl
@[simp] theorem State.setTurns_trace (ts : List Turn) : (s.setTurns ts).trace = s.trace := rfl
@[simp] theorem State.setTurns_host (ts : List Turn) : (s.setTurns ts).host = s.host := rfl
@[simp] theorem State.setTurns_reads (ts : List Turn) : (s.setTurns ts).reads = s.reads := rfl
@[simp] theorem State.setTurns_params (ts : List Turn) : (s.setTurns ts).params = s.params := rfl
@[simp] theorem State.setTurns_quiescent (ts : List Turn) : (s.setTurns ts).quiescent = s.quiescent := rfl
@[simp] theorem State.setTurns_env (ts : List Turn) : (s.setTurns ts).env = s.env := rfl
@[simp] theorem State.setTurns_turns (ts : List Turn) : (s.setTurns ts).turns = ts := rfl
@[simp] theorem State.setTurns_tick (ts : List Turn) : (s.setTurns ts).tick = s.tick := rfl

end Sys2Proof.Machine
end

