-- ==== Sys2Proof/Laws/Bits.lean ====
section
/-! SUPPORT. Facts about the fields of CTRL, STATUS and ENGSTAT, the masked status and the result encoding. -/

namespace Sys2Proof.Machine

/-! ### CTRL after a write -/

@[simp] theorem ctrlAfterWrite_off (c : Byte) : ctrlAfterWrite c ctrlOff = 0x00 := rfl

@[simp] theorem ctrlAfterWrite_start (c : Byte) : ctrlAfterWrite c ctrlStart = 0x24 := by
  simp [ctrlAfterWrite, ctrlEn, ctrlInt, ctrlWritableBits, ctrlStart]

@[simp] theorem ctrlAfterWrite_stop (c : Byte) : ctrlAfterWrite c ctrlStop = 0x14 := by
  simp [ctrlAfterWrite, ctrlEn, ctrlInt, ctrlWritableBits, ctrlStop]

@[simp] theorem ctrlAfterWrite_send (c : Byte) : ctrlAfterWrite c ctrlSend = 0x04 := by
  simp [ctrlAfterWrite, ctrlEn, ctrlInt, ctrlWritableBits, ctrlSend]

@[simp] theorem ctrlAfterWrite_receive (c : Byte) (k : BitVec 1) :
    ctrlAfterWrite c (ctrlReceive k) = if k = 1 then 0x44 else 0x04 := by
  unfold ctrlReceive
  split <;> simp [ctrlAfterWrite, ctrlEn, ctrlInt, ctrlWritableBits]

/-- A write with bit 7 = 0 leaves INT as it was (20_memory.md R58). -/
theorem ctrlAfterWrite_begin (c : Byte) : ctrlAfterWrite c ctrlBegin = 0x44 ||| (c &&& 0x80) := by
  simp [ctrlAfterWrite, ctrlEn, ctrlInt, ctrlWritableBits, ctrlBegin]

@[simp] theorem ctrlAfterWrite_recover : ctrlAfterWrite 0#8 ctrlRecover = 0x44#8 := by decide

/-- The reserved bits read 0 after any write (10_state.md R21). -/
theorem ctrlAfterWrite_reserved (c v : Byte) : ctrlAfterWrite c v &&& 0x0B = 0 := by
  unfold ctrlAfterWrite ctrlWritableBits
  split
  · ext i hi
    interval_cases i <;> split <;> simp
  · rfl

@[simp] theorem ctrlEn_afterWrite (c v : Byte) : ctrlEn (ctrlAfterWrite c v) = ctrlEn v := by
  unfold ctrlAfterWrite ctrlEn ctrlWritableBits
  split <;> rename_i h
  · split <;> simp
  · simp at h
    simp [h]

@[simp] theorem ctrlEn_off : ctrlEn ctrlOff = false := rfl
@[simp] theorem ctrlEn_start : ctrlEn ctrlStart = true := rfl
@[simp] theorem ctrlEn_stop : ctrlEn ctrlStop = true := rfl
@[simp] theorem ctrlEn_send : ctrlEn ctrlSend = true := rfl
@[simp] theorem ctrlEn_begin : ctrlEn ctrlBegin = true := rfl
@[simp] theorem ctrlEn_recover : ctrlEn ctrlRecover = true := rfl
@[simp] theorem ctrlEn_receive (k : BitVec 1) : ctrlEn (ctrlReceive k) = true := by
  unfold ctrlReceive
  split <;> rfl

/-! ### CTRL after a completion -/

theorem ctrlAfterCompletion_reserved : ∀ c : Byte, ctrlAfterCompletion c &&& 0x0B = c &&& 0x0B := by decide

@[simp] theorem ctrlEn_afterCompletion : ∀ c : Byte, ctrlEn (ctrlAfterCompletion c) = ctrlEn c := by decide

@[simp] theorem ctrlInt_afterCompletion : ∀ c : Byte, ctrlInt (ctrlAfterCompletion c) = true := by decide

@[simp] theorem ctrlSto_afterCompletion : ∀ c : Byte, ctrlSto (ctrlAfterCompletion c) = false := by decide

/-! ### STATUS -/

theorem byte_or_and (x y z : Byte) : (x ||| y) &&& z = (x &&& z) ||| (y &&& z) := by
  ext i hi
  simp [Bool.and_or_distrib_right]

theorem statusOfCode_low : ∀ c : StatusCode, statusOfCode c &&& 0x07 = 0 := by decide

@[simp] theorem maskStatus_statusOfCode : ∀ c : StatusCode, maskStatus (statusOfCode c) = statusOfCode c := by
  decide

/-- The status an Await() returns is the code the environment gave (20_memory.md R60). -/
@[simp] theorem maskStatus_withCode (st : Byte) (c : StatusCode) :
    maskStatus (statusWithCode st c) = statusOfCode c := by
  have h := maskStatus_statusOfCode c
  have hz : ∀ x : Byte, x &&& 0x07 &&& 0xF8 = 0 := by decide
  unfold maskStatus at h
  unfold maskStatus statusWithCode
  rw [byte_or_and, h, hz]
  exact BitVec.or_zero

theorem statusWithCode_low (st : Byte) (c : StatusCode) : statusWithCode st c &&& 0x07 = st &&& 0x07 := by
  have h := statusOfCode_low c
  have hi : ∀ x : Byte, x &&& 0x07 &&& 0x07 = x &&& 0x07 := by decide
  unfold statusWithCode
  rw [byte_or_and, h, hi]
  exact BitVec.zero_or

theorem maskStatus_low : ∀ st : Byte, maskStatus st &&& 0x07 = 0 := by decide

theorem statusWithPrescaler1_low (st : Byte) (h : st &&& 0x07 = 0) : statusWithPrescaler1 st &&& 0x07 = 0 := by
  have : ∀ x : Byte, x &&& 0x07 = 0 → statusWithPrescaler1 x &&& 0x07 = 0 := by decide
  exact this st h

/-! ### ENGSTAT -/

@[simp] theorem engstatBusy_value (b : Bool) (v : Speed) : engstatBusy (engstatValue b v) = b := by
  cases b <;> cases v <;> rfl

@[simp] theorem hostRead_engstat_busy (s : State) : engstatBusy (s.hostRead .engstat) = s.busy := by
  simp [State.hostRead, State.engstat]

/-! ### Results -/

/-- A failure result is never the success value (60_exceptions.md R202). -/
theorem enc_ne_zero (s : Byte) : enc s ≠ 0 := by
  unfold enc
  split
  · decide
  · assumption

theorem enc_form (s : Byte) (h : s &&& 0x07 = 0) : enc s = 0xFF ∨ enc s &&& 0x07 = 0 := by
  unfold enc
  split
  · exact .inl rfl
  · exact .inr h

/-! ### Verdicts -/

theorem verdictStart_ne_nack (s : Byte) : verdictStart s ≠ .nack := by
  unfold verdictStart
  split <;> decide

theorem verdictStop_ne_nack (s : Byte) : verdictStop s ≠ .nack := by
  unfold verdictStop
  split <;> decide

theorem verdictReceiveByte_ne_nack (s : Byte) : verdictReceiveByte s ≠ .nack := by
  unfold verdictReceiveByte
  split <;> decide

theorem verdictSendAddress_nack {s : Byte} (h : verdictSendAddress s = .nack) : s = 0x20 ∨ s = 0x48 := by
  unfold verdictSendAddress at h
  split at h
  · cases h
  · split at h
    · assumption
    · cases h

theorem verdictSendByte_nack {s : Byte} (h : verdictSendByte s = .nack) : s = 0x30 := by
  unfold verdictSendByte at h
  split at h
  · cases h
  · split at h
    · assumption
    · cases h

end Sys2Proof.Machine
end

