-- ==== Sys2Proof/Laws/Ops.lean ====
section
/-! SUPPORT. One fact for each field under each composite operation, and one inversion lemma for each shared
operation that branches: what it can do, said once. -/

namespace Sys2Proof.Machine

variable (s : State)

/-! ### recover (60_exceptions.md R204) -/

@[simp] theorem State.recover_ctrl : s.recover.ctrl = 0x44 := by simp [State.recover]
@[simp] theorem State.recover_status : s.recover.status = s.status := rfl
@[simp] theorem State.recover_data : s.recover.data = s.data := rfl
@[simp] theorem State.recover_bitrate : s.recover.bitrate = s.bitrate := rfl
@[simp] theorem State.recover_arg : s.recover.arg = s.arg := rfl
@[simp] theorem State.recover_result : s.recover.result = s.result := rfl
@[simp] theorem State.recover_speedSel : s.recover.speedSel = s.speedSel := rfl
@[simp] theorem State.recover_eng : s.recover.eng = s.eng := rfl
@[simp] theorem State.recover_pend : s.recover.pend = none := rfl
@[simp] theorem State.recover_txnOpen : s.recover.txnOpen = false := rfl
@[simp] theorem State.recover_fault : s.recover.fault = s.fault := rfl
@[simp] theorem State.recover_trace : s.recover.trace = s.trace ++ [.cw 0x00, .cw 0x44] := by simp [State.recover, ctrlOff, ctrlRecover]
@[simp] theorem State.recover_host : s.recover.host = s.host := rfl
@[simp] theorem State.recover_reads : s.recover.reads = s.reads := rfl
@[simp] theorem State.recover_params : s.recover.params = s.params := rfl
@[simp] theorem State.recover_quiescent : s.recover.quiescent = s.quiescent := rfl
@[simp] theorem State.recover_env : s.recover.env = s.env := rfl
@[simp] theorem State.recover_turns : s.recover.turns = s.turns := rfl
@[simp] theorem State.recover_tick : s.recover.tick = s.tick := rfl

/-! ### failExit (60_exceptions.md R206) -/

@[simp] theorem State.failExit_ctrl (st : Byte) : (s.failExit st).ctrl = 0x44 := by simp [State.failExit]
@[simp] theorem State.failExit_status (st : Byte) : (s.failExit st).status = s.status := rfl
@[simp] theorem State.failExit_data (st : Byte) : (s.failExit st).data = s.data := rfl
@[simp] theorem State.failExit_bitrate (st : Byte) : (s.failExit st).bitrate = s.bitrate := rfl
@[simp] theorem State.failExit_arg (st : Byte) : (s.failExit st).arg = s.arg := rfl
@[simp] theorem State.failExit_result (st : Byte) : (s.failExit st).result = enc st := rfl
@[simp] theorem State.failExit_speedSel (st : Byte) : (s.failExit st).speedSel = s.speedSel := rfl
@[simp] theorem State.failExit_eng (st : Byte) : (s.failExit st).eng = .idle := rfl
@[simp] theorem State.failExit_pend (st : Byte) : (s.failExit st).pend = none := rfl
@[simp] theorem State.failExit_txnOpen (st : Byte) : (s.failExit st).txnOpen = false := rfl
@[simp] theorem State.failExit_fault (st : Byte) : (s.failExit st).fault = s.fault := rfl
@[simp] theorem State.failExit_trace (st : Byte) : (s.failExit st).trace = s.trace ++ [.cw 0x00, .cw 0x44, .res (enc st)] := by simp [State.failExit]
@[simp] theorem State.failExit_host (st : Byte) : (s.failExit st).host = s.host := rfl
@[simp] theorem State.failExit_reads (st : Byte) : (s.failExit st).reads = s.reads := rfl
@[simp] theorem State.failExit_params (st : Byte) : (s.failExit st).params = s.params := rfl
@[simp] theorem State.failExit_quiescent (st : Byte) : (s.failExit st).quiescent = s.quiescent := rfl
@[simp] theorem State.failExit_env (st : Byte) : (s.failExit st).env = s.env := rfl
@[simp] theorem State.failExit_turns (st : Byte) : (s.failExit st).turns = s.turns := rfl
@[simp] theorem State.failExit_tick (st : Byte) : (s.failExit st).tick = s.tick := rfl

/-! ### stopSeqLaunch (41_bus_conditions.md R121) -/

@[simp] theorem State.stopSeqLaunch_ctrl (c : Instr) (saved : Option Byte) : (s.stopSeqLaunch c saved).ctrl = 0x14 := by simp [State.stopSeqLaunch]
@[simp] theorem State.stopSeqLaunch_status (c : Instr) (saved : Option Byte) : (s.stopSeqLaunch c saved).status = s.status := rfl
@[simp] theorem State.stopSeqLaunch_data (c : Instr) (saved : Option Byte) : (s.stopSeqLaunch c saved).data = s.data := rfl
@[simp] theorem State.stopSeqLaunch_bitrate (c : Instr) (saved : Option Byte) : (s.stopSeqLaunch c saved).bitrate = s.bitrate := rfl
@[simp] theorem State.stopSeqLaunch_arg (c : Instr) (saved : Option Byte) : (s.stopSeqLaunch c saved).arg = s.arg := rfl
@[simp] theorem State.stopSeqLaunch_result (c : Instr) (saved : Option Byte) : (s.stopSeqLaunch c saved).result = s.result := rfl
@[simp] theorem State.stopSeqLaunch_speedSel (c : Instr) (saved : Option Byte) : (s.stopSeqLaunch c saved).speedSel = s.speedSel := rfl
@[simp] theorem State.stopSeqLaunch_eng (c : Instr) (saved : Option Byte) : (s.stopSeqLaunch c saved).eng = .wStop c saved := rfl
@[simp] theorem State.stopSeqLaunch_pend (c : Instr) (saved : Option Byte) : (s.stopSeqLaunch c saved).pend = some .stop := rfl
@[simp] theorem State.stopSeqLaunch_txnOpen (c : Instr) (saved : Option Byte) : (s.stopSeqLaunch c saved).txnOpen = s.txnOpen := rfl
@[simp] theorem State.stopSeqLaunch_fault (c : Instr) (saved : Option Byte) : (s.stopSeqLaunch c saved).fault = s.fault := rfl
@[simp] theorem State.stopSeqLaunch_trace (c : Instr) (saved : Option Byte) : (s.stopSeqLaunch c saved).trace = s.trace ++ [.cw 0x94, .ph .stop] := by simp [State.stopSeqLaunch, ctrlStop]
@[simp] theorem State.stopSeqLaunch_host (c : Instr) (saved : Option Byte) : (s.stopSeqLaunch c saved).host = s.host := rfl
@[simp] theorem State.stopSeqLaunch_reads (c : Instr) (saved : Option Byte) : (s.stopSeqLaunch c saved).reads = s.reads := rfl
@[simp] theorem State.stopSeqLaunch_params (c : Instr) (saved : Option Byte) : (s.stopSeqLaunch c saved).params = s.params := rfl
@[simp] theorem State.stopSeqLaunch_quiescent (c : Instr) (saved : Option Byte) : (s.stopSeqLaunch c saved).quiescent = s.quiescent := rfl
@[simp] theorem State.stopSeqLaunch_env (c : Instr) (saved : Option Byte) : (s.stopSeqLaunch c saved).env = s.env := rfl
@[simp] theorem State.stopSeqLaunch_turns (c : Instr) (saved : Option Byte) : (s.stopSeqLaunch c saved).turns = s.turns := rfl
@[simp] theorem State.stopSeqLaunch_tick (c : Instr) (saved : Option Byte) : (s.stopSeqLaunch c saved).tick = s.tick := rfl

/-! ### sendLaunch (42_data_phase.md R140, R141) -/

@[simp] theorem State.sendLaunch_ctrl (b : Byte) (p : Phase) (c : Instr) : (s.sendLaunch b p c).ctrl = 0x04 := by simp [State.sendLaunch]
@[simp] theorem State.sendLaunch_status (b : Byte) (p : Phase) (c : Instr) : (s.sendLaunch b p c).status = s.status := rfl
@[simp] theorem State.sendLaunch_data (b : Byte) (p : Phase) (c : Instr) : (s.sendLaunch b p c).data = b := rfl
@[simp] theorem State.sendLaunch_bitrate (b : Byte) (p : Phase) (c : Instr) : (s.sendLaunch b p c).bitrate = s.bitrate := rfl
@[simp] theorem State.sendLaunch_arg (b : Byte) (p : Phase) (c : Instr) : (s.sendLaunch b p c).arg = s.arg := rfl
@[simp] theorem State.sendLaunch_result (b : Byte) (p : Phase) (c : Instr) : (s.sendLaunch b p c).result = s.result := rfl
@[simp] theorem State.sendLaunch_speedSel (b : Byte) (p : Phase) (c : Instr) : (s.sendLaunch b p c).speedSel = s.speedSel := rfl
@[simp] theorem State.sendLaunch_eng (b : Byte) (p : Phase) (c : Instr) : (s.sendLaunch b p c).eng = .wMain c := rfl
@[simp] theorem State.sendLaunch_pend (b : Byte) (p : Phase) (c : Instr) : (s.sendLaunch b p c).pend = some p := rfl
@[simp] theorem State.sendLaunch_txnOpen (b : Byte) (p : Phase) (c : Instr) : (s.sendLaunch b p c).txnOpen = s.txnOpen := rfl
@[simp] theorem State.sendLaunch_fault (b : Byte) (p : Phase) (c : Instr) : (s.sendLaunch b p c).fault = s.fault := rfl
@[simp] theorem State.sendLaunch_trace (b : Byte) (p : Phase) (c : Instr) : (s.sendLaunch b p c).trace = s.trace ++ [.dw b, .cw 0x84, .ph p] := by simp [State.sendLaunch, ctrlSend]
@[simp] theorem State.sendLaunch_host (b : Byte) (p : Phase) (c : Instr) : (s.sendLaunch b p c).host = s.host := rfl
@[simp] theorem State.sendLaunch_reads (b : Byte) (p : Phase) (c : Instr) : (s.sendLaunch b p c).reads = s.reads := rfl
@[simp] theorem State.sendLaunch_params (b : Byte) (p : Phase) (c : Instr) : (s.sendLaunch b p c).params = s.params := rfl
@[simp] theorem State.sendLaunch_quiescent (b : Byte) (p : Phase) (c : Instr) : (s.sendLaunch b p c).quiescent = s.quiescent := rfl
@[simp] theorem State.sendLaunch_env (b : Byte) (p : Phase) (c : Instr) : (s.sendLaunch b p c).env = s.env := rfl
@[simp] theorem State.sendLaunch_turns (b : Byte) (p : Phase) (c : Instr) : (s.sendLaunch b p c).turns = s.turns := rfl
@[simp] theorem State.sendLaunch_tick (b : Byte) (p : Phase) (c : Instr) : (s.sendLaunch b p c).tick = s.tick := rfl

/-! ### stopSeqEnd (41_bus_conditions.md R121) -/

/-- A stop that succeeded closes the transaction and does no more (41_bus_conditions.md R121). -/
theorem State.stopSeqEnd_success {st : Byte} (h : verdictStop st = .success) :
    s.stopSeqEnd st = s.setTxnOpen false := by
  simp [State.stopSeqEnd, h]

/-- A stop that failed recovers the bus, once (41_bus_conditions.md R121). -/
theorem State.stopSeqEnd_fail {st : Byte} (h : verdictStop st = .fail) :
    s.stopSeqEnd st = (s.setTxnOpen false).recover := by
  simp [State.stopSeqEnd, h]

/-- The two ends of a stop (41_bus_conditions.md R121). -/
theorem State.stopSeqEnd_cases (st : Byte) :
    (verdictStop st = .success ∧ s.stopSeqEnd st = s.setTxnOpen false) ∨
      (verdictStop st = .fail ∧ s.stopSeqEnd st = (s.setTxnOpen false).recover) := by
  rcases hv : verdictStop st with _ | _ | _
  · exact .inl ⟨rfl, s.stopSeqEnd_success hv⟩
  · exact absurd hv (verdictStop_ne_nack st)
  · exact .inr ⟨rfl, s.stopSeqEnd_fail hv⟩

/-! ### Where the engine stands -/

variable {s}

theorem State.stage_issued {c : Instr} (h : s.eng = .issued c) : s.stage = .first := by
  simp [State.stage, h]

theorem State.stage_wMain_pending {c : Instr} {p : Phase} (h : s.eng = .wMain c) (hp : s.pend = some p) :
    s.stage = .awaiting := by
  simp [State.stage, h, hp]

theorem State.stage_wMain_done {c : Instr} (h : s.eng = .wMain c) (hp : s.pend = none) :
    s.stage = .mainDone s.maskedStatus := by
  simp [State.stage, h, hp]

theorem State.stage_wStop_pending {c : Instr} {saved : Option Byte} {p : Phase} (h : s.eng = .wStop c saved)
    (hp : s.pend = some p) : s.stage = .awaiting := by
  simp [State.stage, h, hp]

theorem State.stage_wStop_done {c : Instr} {saved : Option Byte} (h : s.eng = .wStop c saved)
    (hp : s.pend = none) : s.stage = .stopDone saved s.maskedStatus := by
  simp [State.stage, h, hp]

/-- Each place of the engine names its engine state (10_state.md R30). -/
theorem State.stage_cases (s : State) :
    (s.stage = .first ∧ (s.eng = .idle ∨ ∃ c, s.eng = .issued c)) ∨
    (s.stage = .awaiting ∧ s.eng.inHold = true ∧ s.pend ≠ none) ∨
    (∃ c, s.stage = .mainDone s.maskedStatus ∧ s.eng = .wMain c ∧ s.pend = none) ∨
    (∃ c saved, s.stage = .stopDone saved s.maskedStatus ∧ s.eng = .wStop c saved ∧ s.pend = none) := by
  rcases he : s.eng with _ | c | c | ⟨c, saved⟩
  · exact .inl ⟨by simp [State.stage, he], .inl rfl⟩
  · exact .inl ⟨by simp [State.stage, he], .inr ⟨c, rfl⟩⟩
  · rcases hp : s.pend with _ | p
    · exact .inr (.inr (.inl ⟨c, State.stage_wMain_done he hp, rfl, rfl⟩))
    · exact .inr (.inl ⟨State.stage_wMain_pending he hp, rfl, by simp⟩)
  · rcases hp : s.pend with _ | p
    · exact .inr (.inr (.inr ⟨c, saved, State.stage_wStop_done he hp, rfl, rfl⟩))
    · exact .inr (.inl ⟨State.stage_wStop_pending he hp, rfl, by simp⟩)

/-- At its first statement a command in flight has just been issued. -/
theorem State.eng_of_first {s : State} {i : Instr} (hi : s.eng.command = some i) (h : s.stage = .first) :
    s.eng = .issued i := by
  rcases he : s.eng with _ | c | c | ⟨c, saved⟩ <;> rw [he] at hi <;> simp [Eng.command] at hi
  · rw [hi]
  · rcases hp : s.pend with _ | p <;> simp [State.stage, he, hp] at h
  · rcases hp : s.pend with _ | p <;> simp [State.stage, he, hp] at h

/-- A completed main phase is that of the command in flight. -/
theorem State.eng_of_mainDone {s : State} {i : Instr} {st : Byte} (hi : s.eng.command = some i)
    (h : s.stage = .mainDone st) : s.eng = .wMain i ∧ s.pend = none ∧ st = s.maskedStatus := by
  rcases he : s.eng with _ | c | c | ⟨c, saved⟩ <;> rw [he] at hi <;> simp [Eng.command] at hi
  · simp [State.stage, he] at h
  · rcases hp : s.pend with _ | p <;> simp [State.stage, he, hp] at h
    exact ⟨by rw [hi], rfl, h.symm⟩
  · rcases hp : s.pend with _ | p <;> simp [State.stage, he, hp] at h

/-- A completed stop phase is that of the command in flight. -/
theorem State.eng_of_stopDone {s : State} {i : Instr} {saved : Option Byte} {st : Byte}
    (hi : s.eng.command = some i) (h : s.stage = .stopDone saved st) :
    s.eng = .wStop i saved ∧ s.pend = none ∧ st = s.maskedStatus := by
  rcases he : s.eng with _ | c | c | ⟨c, sv⟩ <;> rw [he] at hi <;> simp [Eng.command] at hi
  · simp [State.stage, he] at h
  · rcases hp : s.pend with _ | p <;> simp [State.stage, he, hp] at h
  · rcases hp : s.pend with _ | p <;> simp [State.stage, he, hp] at h
    exact ⟨by rw [hi, h.1], rfl, h.2.symm⟩

/-! ### Issue and the window -/

/-- Issue either accepts the command its checks let through, or raises the first fault they find (20_memory.md
R52). -/
theorem State.issue_cases (s : State) (op : Byte) :
    (∃ c, issueCheck s op = .accept c ∧ s.issue op = s.accept op c) ∨
      (∃ r, issueCheck s op = .reject r ∧ s.issue op = s.raiseFault r) := by
  unfold State.issue
  rcases issueCheck s op with c | r
  · exact .inl ⟨c, rfl, rfl⟩
  · exact .inr ⟨r, rfl, rfl⟩

/-- What an accepted issue has passed (60_exceptions.md R210). -/
theorem issueCheck_accept {s : State} {op : Byte} {c : Instr} (h : issueCheck s op = .accept c) :
    s.eng = .idle ∧ decode (commandWord op s.arg) = .command c ∧ (s.enabled = false → c = .beginCmd) ∧
      (isReconfiguration c = true → s.txnOpen = false) ∧ (isDataPhase c = true → s.txnOpen = true) := by
  unfold issueCheck at h
  split at h
  · cases h
  · rename_i hb
    split at h
    · cases h
    · rename_i c' hd
      split at h
      · cases h
      · rename_i h1
        split at h
        · cases h
        · rename_i h2
          split at h
          · cases h
          · rename_i h3
            cases h
            refine ⟨by simpa [State.busy] using hb, hd, fun he => ?_, fun hr => ?_, fun hdp => ?_⟩
            · by_contra hne
              exact h1 ⟨hne, he⟩
            · by_contra ho
              exact h2 ⟨hr, by simpa using ho⟩
            · by_contra ho
              exact h3 ⟨hdp, by simpa using ho⟩

/-- What a host write does: ARG, an accepted issue, or a raised fault (20_memory.md R52). -/
theorem State.hostWrite_cases (s : State) (r : Reg) (v : Byte) :
    (r = .arg ∧ s.hostWrite r v = s.setArg v) ∨
      (∃ c, r = .cmd ∧ issueCheck s v = .accept c ∧ s.hostWrite r v = s.accept v c) ∨
      (∃ f, s.hostWrite r v = s.raiseFault f) := by
  cases r
  case arg => exact .inl ⟨rfl, rfl⟩
  case cmd =>
    rcases s.issue_cases v with ⟨c, h, e⟩ | ⟨f, -, e⟩
    · exact .inr (.inl ⟨c, rfl, h, e⟩)
    · exact .inr (.inr ⟨f, e⟩)
  all_goals exact .inr (.inr ⟨.hostAccess, rfl⟩)

/-- What a host access does: nothing, a read, a write of one register, or a raised fault (20_memory.md R50 to
R53). -/
theorem State.hostAccess_cases (s : State) (a : Access) :
    s.hostAccess a = s ∨ (∃ r, s.hostAccess a = s.noteRead (s.hostRead r)) ∨
      (∃ r v, s.hostAccess a = s.hostWrite r v) ∨ s.hostAccess a = s.raiseFault .hostAccess := by
  unfold State.hostAccess
  split
  · exact .inl rfl
  · split
    · exact .inr (.inr (.inr rfl))
    · split
      · exact .inr (.inl ⟨_, rfl⟩)
      · exact .inr (.inr (.inl ⟨_, _, rfl⟩))
      · exact .inl rfl

end Sys2Proof.Machine
end

