-- ==== Sys2Proof/Laws/Exec.lean ====
section
/-! SUPPORT. What an engine step can do, said once: every `exec i s = next t` is one of the moves of `EngineMove`,
each with its guard. -/

namespace Sys2Proof.Machine

/-- The moves of an engine step of command `i` from `s` to `t` (00_scope.md R9; 40_config.md, 41_bus_conditions.md,
42_data_phase.md). -/
inductive EngineMove (s : State) : Instr → State → Prop where
  | beginCmd (h : s.stage = .first) :
      EngineMove s .beginCmd (((s.setPrescaler1.setBitrate s.speedSel).ctrlWrite ctrlBegin).finish 0x00)
  | endCmd (h : s.stage = .first) : EngineMove s .endCmd (((s.ctrlWrite ctrlOff).setTxnOpen false).finish 0x00)
  | setLowSpeed (h : s.stage = .first) :
      EngineMove s .setLowSpeed (((s.setSpeed .low).setBitrate .low).finish 0x00)
  | setHighSpeed (h : s.stage = .first) :
      EngineMove s .setHighSpeed (((s.setSpeed .high).setBitrate .high).finish 0x00)
  | launchStart (h : s.stage = .first) :
      EngineMove s .start (((s.ctrlWrite ctrlStart).launch .start).hold (.wMain .start))
  | launchStop (h : s.stage = .first) : EngineMove s .stop (s.stopSeqLaunch .stop none)
  | launchAddress (a : BitVec 7) (d : BitVec 1) (h : s.stage = .first) :
      EngineMove s (.sendAddress a d) (s.sendLaunch (slaByte a d) (.addr (slaByte a d)) (.sendAddress a d))
  | launchByte (d : Byte) (h : s.stage = .first) :
      EngineMove s (.sendByte d) (s.sendLaunch d (.tx d) (.sendByte d))
  | launchReceive (k : BitVec 1) (h : s.stage = .first) :
      EngineMove s (.receiveByte k)
        (((s.ctrlWrite (ctrlReceive k)).launch (.rx k)).hold (.wMain (.receiveByte k)))
  | held (i : Instr) (h : s.stage = .awaiting) : EngineMove s i s
  | startDone (st : Byte) (h : s.stage = .mainDone st) (hv : verdictStart st = .success) :
      EngineMove s .start ((s.setTxnOpen true).finish 0x00)
  | dataDone (i : Instr) (st : Byte) (hi : isDataPhase i = true) (h : s.stage = .mainDone st)
      (hv : classify i st = some .success) : EngineMove s i (s.finish 0x00)
  | nack (i : Instr) (st : Byte) (h : s.stage = .mainDone st) (hv : classify i st = some .nack) :
      EngineMove s i (s.stopSeqLaunch i (some st))
  | failed (i : Instr) (st : Byte) (hi : (mainPhase i).isSome = true) (h : s.stage = .mainDone st)
      (hv : classify i st = some .fail) : EngineMove s i (s.failExit st)
  | stopDone (st : Byte) (h : s.stage = .stopDone none st) (hv : verdictStop st = .success) :
      EngineMove s .stop ((s.setTxnOpen false).finish 0x00)
  | stopFailed (st : Byte) (h : s.stage = .stopDone none st) (hv : verdictStop st = .fail) :
      EngineMove s .stop ((s.setTxnOpen false).recover.finish (enc st))
  | nackDone (i : Instr) (saved st : Byte) (h : s.stage = .stopDone (some saved) st)
      (hv : verdictStop st = .success) : EngineMove s i ((s.setTxnOpen false).finish saved)
  | nackFailed (i : Instr) (saved st : Byte) (h : s.stage = .stopDone (some saved) st)
      (hv : verdictStop st = .fail) : EngineMove s i ((s.setTxnOpen false).recover.finish saved)

/-- A configuration command's step runs from its first statement only. -/
theorem State.configStep_next {s done t : State} (h : s.configStep done = .next t) :
    s.stage = .first ∧ done = t := by
  unfold State.configStep at h
  split at h <;> cases h
  exact ⟨by assumption, rfl⟩

theorem nackDone_move {s : State} (i : Instr) {saved st : Byte} (h : s.stage = .stopDone (some saved) st) :
    EngineMove s i (s.nackDone saved st) := by
  unfold State.nackDone
  rcases s.stopSeqEnd_cases st with ⟨hv, e⟩ | ⟨hv, e⟩ <;> rw [e]
  · exact .nackDone i saved st h hv
  · exact .nackFailed i saved st h hv

theorem sendDone_move {s : State} {i : Instr} {st : Byte} {v : Verdict} (hi : isDataPhase i = true)
    (hp : (mainPhase i).isSome = true) (h : s.stage = .mainDone st) (hv : classify i st = some v) :
    EngineMove s i (s.sendDone v st i) := by
  cases v
  · exact .dataDone i st hi h hv
  · exact .nack i st h hv
  · exact .failed i st hp h hv

theorem execStart_move {s t : State} (h : execStart s = .next t) : EngineMove s .start t := by
  unfold execStart at h
  split at h
  · cases h; exact .launchStart ‹_›
  · cases h; exact .held _ ‹_›
  · split at h <;> cases h
    · exact .startDone _ ‹_› ‹_›
    · exact absurd ‹_› (verdictStart_ne_nack _)
    · exact .failed _ _ rfl ‹_› (by simp [classify, *])
  · cases h

theorem execStop_move {s t : State} (h : execStop s = .next t) : EngineMove s .stop t := by
  unfold execStop at h
  split at h
  · cases h; exact .launchStop ‹_›
  · cases h; exact .held _ ‹_›
  · cases h
  · split at h <;> cases h
    · rw [State.stopSeqEnd_success _ ‹_›]; exact .stopDone _ ‹_› ‹_›
    · exact absurd ‹_› (verdictStop_ne_nack _)
    · rw [State.stopSeqEnd_fail _ ‹_›]; exact .stopFailed _ ‹_› ‹_›
  · cases h

theorem execSendAddress_move {a : BitVec 7} {d : BitVec 1} {s t : State}
    (h : execSendAddress a d s = .next t) : EngineMove s (.sendAddress a d) t := by
  unfold execSendAddress at h
  split at h <;> cases h
  · exact .launchAddress a d ‹_›
  · exact .held _ ‹_›
  · exact sendDone_move rfl rfl ‹_› rfl
  · exact nackDone_move _ ‹_›

theorem execSendByte_move {d : Byte} {s t : State} (h : execSendByte d s = .next t) :
    EngineMove s (.sendByte d) t := by
  unfold execSendByte at h
  split at h <;> cases h
  · exact .launchByte d ‹_›
  · exact .held _ ‹_›
  · exact sendDone_move rfl rfl ‹_› rfl
  · exact nackDone_move _ ‹_›

theorem execReceiveByte_move {k : BitVec 1} {s t : State} (h : execReceiveByte k s = .next t) :
    EngineMove s (.receiveByte k) t := by
  unfold execReceiveByte at h
  split at h
  · cases h; exact .launchReceive k ‹_›
  · cases h; exact .held _ ‹_›
  · split at h <;> cases h
    · exact .dataDone _ _ rfl ‹_› (by simp [classify, *])
    · exact absurd ‹_› (verdictReceiveByte_ne_nack _)
    · exact .failed _ _ rfl ‹_› (by simp [classify, *])
  · cases h

/-- The inversion lemma of `exec`: every engine step that answers a next state is one of the moves. -/
theorem exec_move {i : Instr} {s t : State} (h : exec i s = .next t) : EngineMove s i t := by
  cases i with
  | beginCmd => obtain ⟨hs, rfl⟩ := State.configStep_next h; exact .beginCmd hs
  | endCmd => obtain ⟨hs, rfl⟩ := State.configStep_next h; exact .endCmd hs
  | setLowSpeed => obtain ⟨hs, rfl⟩ := State.configStep_next h; exact .setLowSpeed hs
  | setHighSpeed => obtain ⟨hs, rfl⟩ := State.configStep_next h; exact .setHighSpeed hs
  | start => exact execStart_move h
  | stop => exact execStop_move h
  | sendAddress a d => exact execSendAddress_move h
  | sendByte d => exact execSendByte_move h
  | receiveByte k => exact execReceiveByte_move h

end Sys2Proof.Machine
end

