-- ==== Sys2Proof/Laws/Step.lean ====
section
/-! SUPPORT. What a step of the machine can do, said once: every `step s = next t` is one of the moves of
`StepMove`. -/

namespace Sys2Proof.Machine

/-! ### States with the same block -/

theorem State.SameBlock.refl (s : State) : s.SameBlock s := by
  constructor <;> first | rfl | (constructor <;> rfl)

theorem State.SameBlock.trans {s t u : State} (h : s.SameBlock t) (k : t.SameBlock u) : s.SameBlock u := by
  constructor
  · constructor
    · rw [k.ctrl, h.ctrl]
    · rw [k.status, h.status]
    · rw [k.data, h.data]
    · rw [k.bitrate, h.bitrate]
    · rw [k.arg, h.arg]
    · rw [k.result, h.result]
    · rw [k.speedSel, h.speedSel]
    · rw [k.eng, h.eng]
    · rw [k.pend, h.pend]
  · rw [k.txnOpen, h.txnOpen]
  · rw [k.fault, h.fault]
  · rw [k.trace, h.trace]
  · rw [k.params, h.params]
  · rw [k.quiescent, h.quiescent]

theorem State.sameBlock_setTurns (s : State) (ts : List Turn) : s.SameBlock (s.setTurns ts) := by
  constructor <;> first | rfl | (constructor <;> rfl)

theorem State.sameBlock_nextTick (s : State) : s.SameBlock s.nextTick := by
  constructor <;> first | rfl | (constructor <;> rfl)

theorem State.sameBlock_setEnv (s : State) (e : Env) : s.SameBlock (s.setEnv e) := by
  constructor <;> first | rfl | (constructor <;> rfl)

theorem State.sameBlock_setHost (s : State) (h : HostRun) : s.SameBlock (s.setHost h) := by
  constructor <;> first | rfl | (constructor <;> rfl)

theorem State.sameBlock_noteRead (s : State) (v : Byte) : s.SameBlock (s.noteRead v) := by
  constructor <;> first | rfl | (constructor <;> rfl)

theorem State.sameBlock_hostGoto (s : State) (g : HostStage) : s.SameBlock (s.hostGoto g) :=
  s.sameBlock_setHost _

theorem State.sameBlock_hostAdvance (s : State) (r : Byte) : s.SameBlock (s.hostAdvance r) :=
  s.sameBlock_setHost _

theorem State.SameBlock.enabled {s t : State} (h : s.SameBlock t) : t.enabled = s.enabled := by
  simp [State.enabled, h.ctrl]

theorem State.SameBlock.busy {s t : State} (h : s.SameBlock t) : t.busy = s.busy := by
  simp [State.busy, h.eng]

theorem State.SameBlock.stage {s t : State} (h : s.SameBlock t) : t.stage = s.stage := by
  simp [State.stage, State.maskedStatus, h.eng, h.pend, h.status]

theorem State.SameBlock.issueCheck {s t : State} (h : s.SameBlock t) (op : Byte) :
    issueCheck t op = issueCheck s op := by
  simp [Sys2Proof.Machine.issueCheck, h.busy, h.enabled, h.arg, h.txnOpen]

/-! ### What a step can do -/

/-- The moves of one step from `s` to `t`, up to what is outside the block (00_scope.md R5). -/
inductive StepMove (s t : State) : Prop where
  /-- the block does nothing: a host read, a program's bookkeeping, a turn that is not enabled -/
  | outside (h : s.SameBlock t)
  /-- reset (70_reset_and_hazards.md R240) -/
  | reset (u : State) (h : s.SameBlock u) (ht : t = u.resetAct)
  /-- an engine step of the command in flight -/
  | engine (u : State) (i : Instr) (h : s.SameBlock u) (hi : u.eng.command = some i) (he : exec i u = .next t)
  /-- the environment completes the pending phase -/
  | completion (u : State) (p : Phase) (o : PhaseOutcome) (h : s.SameBlock u) (hp : u.pend = some p)
      (ha : drawAllows u.params.statusDraw p o.code = true) (ht : t = u.completePhase p o)
  /-- the host writes ARG -/
  | argWrite (v : Byte) (h : (s.setArg v).SameBlock t)
  /-- the host issues a command and it is accepted -/
  | accepted (op : Byte) (c : Instr) (hc : issueCheck s op = .accept c) (h : (s.accept op c).SameBlock t)
  /-- a host fault is raised -/
  | faulted (f : FaultReason) (h : (s.raiseFault f).SameBlock t)

theorem State.SameBlock.setArg {s t : State} (h : s.SameBlock t) (v : Byte) :
    (s.setArg v).SameBlock (t.setArg v) := by
  constructor
  · constructor <;> simp [h.ctrl, h.status, h.data, h.bitrate, h.result, h.speedSel, h.eng, h.pend]
  all_goals simp [h.txnOpen, h.fault, h.trace, h.params, h.quiescent]

theorem State.SameBlock.accept {s t : State} (h : s.SameBlock t) (op : Byte) (c : Instr) :
    (s.accept op c).SameBlock (t.accept op c) := by
  constructor
  · constructor <;> simp [h.ctrl, h.status, h.data, h.bitrate, h.arg, h.result, h.speedSel, h.pend]
  all_goals simp [h.txnOpen, h.fault, h.trace, h.arg, h.params, h.quiescent]

theorem State.SameBlock.raiseFault {s t : State} (h : s.SameBlock t) (f : FaultReason) :
    (s.raiseFault f).SameBlock (t.raiseFault f) := by
  constructor
  · constructor <;> simp [h.ctrl, h.status, h.data, h.bitrate, h.arg, h.result, h.speedSel, h.eng, h.pend]
  all_goals simp [h.txnOpen, h.trace, h.params]

theorem StepMove.of_same {s u t : State} (h : s.SameBlock u) (m : StepMove u t) : StepMove s t := by
  cases m with
  | outside k => exact .outside (h.trans k)
  | reset v k ht => exact .reset v (h.trans k) ht
  | engine v i k hi he => exact .engine v i (h.trans k) hi he
  | completion v p o k hp ha ht => exact .completion v p o (h.trans k) hp ha ht
  | argWrite v k => exact .argWrite v ((h.setArg v).trans k)
  | accepted op c hc k => exact .accepted op c (by rw [← h.issueCheck]; exact hc) ((h.accept op c).trans k)
  | faulted f k => exact .faulted f ((h.raiseFault f).trans k)

/-- A host write, and then what the host does for itself. -/
theorem StepMove.of_hostWrite {s t : State} (r : Reg) (v : Byte) (h : (s.hostWrite r v).SameBlock t) :
    StepMove s t := by
  rcases s.hostWrite_cases r v with ⟨-, e⟩ | ⟨c, -, hc, e⟩ | ⟨f, e⟩ <;> rw [e] at h
  · exact .argWrite v h
  · exact .accepted v c hc h
  · exact .faulted f h

theorem State.completeWith_move (s : State) (o : PhaseOutcome) : StepMove s (s.completeWith o) := by
  unfold State.completeWith
  split
  · exact .outside (.refl s)
  · rename_i p hp
    split
    · rename_i ha
      exact .completion s p o (.refl s) hp ha rfl
    · exact .outside (.refl s)

theorem State.environmentStep_move (s : State) : StepMove s s.environmentStep := by
  unfold State.environmentStep
  split
  · exact .outside s.sameBlock_nextTick
  · split
    · exact .outside s.sameBlock_nextTick
    · rename_i o e _
      exact .of_same ((s.sameBlock_setEnv e).trans (State.sameBlock_nextTick _)) (State.completeWith_move _ o)

theorem State.programStep_move (s : State) : StepMove s s.programStep := by
  unfold State.programStep
  split
  · exact .outside (.refl s)
  · unfold State.hostFetch
    split
    · exact .outside (s.sameBlock_hostGoto _)
    · exact .outside ((s.sameBlock_noteRead _).trans (State.sameBlock_hostAdvance _ _))
    · exact .of_hostWrite .arg _ (State.sameBlock_hostGoto _ _)
  · exact .of_hostWrite .cmd _ (State.sameBlock_hostGoto _ _)
  · unfold State.hostPoll
    split
    · exact .outside (.refl s)
    · exact .outside (s.sameBlock_hostGoto _)
  · unfold State.hostResult
    split
    · exact .outside (s.sameBlock_hostAdvance _)
    · exact .outside (s.sameBlock_hostGoto _)
  · exact .outside (.refl s)

theorem State.hostAccess_move (s : State) (a : Access) : StepMove s (s.hostAccess a) := by
  rcases s.hostAccess_cases a with e | ⟨r, e⟩ | ⟨r, v, e⟩ | e <;> rw [e]
  · exact .outside (.refl s)
  · exact .outside (s.sameBlock_noteRead _)
  · exact .of_hostWrite r v (.refl _)
  · exact .faulted .hostAccess (.refl _)

theorem State.takeTurn_move {s t : State} {k : Turn} (h : s.takeTurn k = .next t) : StepMove s t := by
  unfold State.takeTurn at h
  split at h
  · cases h
  · cases k with
    | engine =>
      simp only [State.agentTurn, State.engineTurn] at h
      split at h
      · exact .engine s _ (.refl s) ‹_› h
      · cases h; exact .outside (.refl s)
    | complete o => cases h; exact s.completeWith_move o
    | environment => cases h; exact s.environmentStep_move
    | program => cases h; exact s.programStep_move
    | access a => cases h; exact s.hostAccess_move a
    | run lines => cases h; exact .outside (s.sameBlock_setHost _)
    | reset => cases h; exact .reset s (.refl s) rfl

/-- The inversion lemma of `step`: every step that answers a next state is one of the moves. -/
theorem step_move {s t : State} (h : step s = .next t) : StepMove s t := by
  unfold step State.runTurn at h
  split at h
  · exact .of_same (s.sameBlock_setTurns _) (State.takeTurn_move h)
  · exact .of_same s.sameBlock_nextTick (State.takeTurn_move h)

/-- A reset turn in a state, quiescent or not (70_reset_and_hazards.md R240). -/
theorem takeTurn_reset (s : State) : s.takeTurn .reset = .next s.resetAct := by
  simp [State.takeTurn, Turn.isReset, State.agentTurn]

/-- A turn other than reset in a state that is not quiescent. -/
theorem takeTurn_agent {s : State} (h : s.quiescent = false) (k : Turn) : s.takeTurn k = s.agentTurn k := by
  simp [State.takeTurn, h]

/-- A step with a move in the list. -/
theorem step_turn {s : State} {k : Turn} {rest : List Turn} (h : s.turns = k :: rest) :
    step s = (s.setTurns rest).takeTurn k := by
  simp [step, State.runTurn, h]

/-- A step with an empty list of moves. -/
theorem step_eager {s : State} (h : s.turns = []) : step s = s.nextTick.takeTurn s.nextTick.eagerTurn := by
  simp [step, State.runTurn, h]

/-- A run of several steps begins with one. -/
theorem core_run_next {s t : State} {k : Nat} (h : step s = .next t) :
    Sys2Proof.core.run (k + 1) s = Sys2Proof.core.run k t := by
  have general : ∀ (M : Host.Core) (s t : M.State), M.step s = .next t → M.run (k + 1) s = M.run k t := by
    intro M s t h
    simp only [Host.Core.run, h]
  exact general Sys2Proof.core s t h

end Sys2Proof.Machine
end

