-- ==== Sys2Proof/Laws/Invariant.lean ====
section
/-! SUPPORT. What each move of the machine does to the invariant: one lemma for each kind of move. -/

namespace Sys2Proof.Machine

/-- The invariant speaks of the block only. -/
theorem State.Inv.congr {s t : State} (k : s.Inv) (h : s.SameBlock t) : t.Inv := by
  have e1 := h.ctrl; have e2 := h.status; have e3 := h.bitrate; have e4 := h.result
  have e5 := h.speedSel; have e6 := h.eng; have e7 := h.pend; have e8 := h.txnOpen; have e9 := h.fault
  have e10 := h.params; have e11 := h.quiescent; have e12 := h.enabled; have e13 := h.data
  constructor <;> simp only [e1, e2, e3, e4, e5, e6, e7, e8, e9, e10, e11, e12, e13]
  exacts [k.ctrlReserved, k.statusLow, k.disabledCleared, k.engPend, k.holdCtrl, k.stoPending, k.dataOnBus, k.dataOpen,
    k.reconfigClosed, k.resultForm, k.failedClosed, k.bitrateLegal, k.bitrateSelected, k.quiescentFault]

/-- Reset establishes the invariant from any state (70_reset_and_hazards.md R240). -/
theorem State.Inv.resetAct (s : State) : s.resetAct.Inv := by
  constructor <;> simp [State.enabled, engPendOk, Eng.inHold, Eng.command, ctrlEn, ctrlSto]

/-- Only BEGIN is in flight while the block is disabled (60_exceptions.md R210). -/
theorem State.Inv.enabled_of {s : State} (k : s.Inv) (h1 : s.eng ≠ .idle) (h2 : s.eng ≠ .issued .beginCmd) :
    s.enabled = true := by
  by_contra h
  rcases (k.disabledCleared (by simpa using h)).2.2.2 with h | h <;> contradiction

/-- Every move of the engine keeps the invariant. -/
theorem State.Inv.engine {s t : State} {i : Instr} (k : s.Inv) (hi : s.eng.command = some i)
    (m : EngineMove s i t) : t.Inv := by
  cases m with
  | beginCmd h =>
    have he := State.eng_of_first hi h
    have hp : s.pend = none := by simpa [he, engPendOk] using k.engPend
    have ht := k.reconfigClosed _ hi rfl
    have hsto : ctrlSto s.ctrl = false := by
      by_contra hs; have := k.stoPending (by simpa using hs); simp [hp] at this
    constructor <;> simp [State.enabled, engPendOk, Eng.inHold, Eng.command, hp, ht]
    · exact ctrlAfterWrite_reserved _ _
    · exact statusWithPrescaler1_low _ k.statusLow
    · rw [ctrlAfterWrite_begin]; revert hsto; generalize s.ctrl = c; revert c; decide
    · cases s.speedSel <;> simp
    · exact k.quiescentFault
  | endCmd h =>
    have he := State.eng_of_first hi h
    have hp : s.pend = none := by simpa [he, engPendOk] using k.engPend
    constructor <;> simp [State.enabled, engPendOk, Eng.inHold, Eng.command, ctrlSto]
    · exact k.statusLow
    · exact k.bitrateLegal
    · intro h; exact absurd h (by decide)
    · exact k.quiescentFault
  | setLowSpeed h =>
    have he := State.eng_of_first hi h
    have hp : s.pend = none := by simpa [he, engPendOk] using k.engPend
    have ht := k.reconfigClosed _ hi rfl
    have hen := k.enabled_of (by simp [he]) (by simp [he])
    constructor <;> simp_all [State.enabled, engPendOk, Eng.inHold, Eng.command]
    · exact k.ctrlReserved
    · exact k.statusLow
    · simpa [hp] using k.stoPending
    · exact k.quiescentFault
  | setHighSpeed h =>
    have he := State.eng_of_first hi h
    have hp : s.pend = none := by simpa [he, engPendOk] using k.engPend
    have ht := k.reconfigClosed _ hi rfl
    have hen := k.enabled_of (by simp [he]) (by simp [he])
    constructor <;> simp_all [State.enabled, engPendOk, Eng.inHold, Eng.command]
    · exact k.ctrlReserved
    · exact k.statusLow
    · simpa [hp] using k.stoPending
    · exact k.quiescentFault
  | launchStart h =>
    have he := State.eng_of_first hi h
    have hp : s.pend = none := by simpa [he, engPendOk] using k.engPend
    have hen := k.enabled_of (by simp [he]) (by simp [he])
    constructor <;> simp [State.enabled, engPendOk, Eng.inHold, Eng.command, mainPhase, pendingCtrl,
      isDataPhase, isReconfiguration]
    · exact k.statusLow
    · decide
    · decide
    · exact k.resultForm
    · exact k.failedClosed
    · exact k.bitrateLegal
    · intro _; exact k.bitrateSelected hen
    · exact k.quiescentFault
  | launchStop h =>
    have he := State.eng_of_first hi h
    have hp : s.pend = none := by simpa [he, engPendOk] using k.engPend
    have hen := k.enabled_of (by simp [he]) (by simp [he])
    constructor <;> simp [State.enabled, engPendOk, Eng.inHold, Eng.command, pendingCtrl, isDataPhase,
      isReconfiguration, stopOrigin]
    · exact k.statusLow
    · decide
    · exact k.resultForm
    · exact k.failedClosed
    · exact k.bitrateLegal
    · intro _; exact k.bitrateSelected hen
    · exact k.quiescentFault
  | launchAddress a d h =>
    have he := State.eng_of_first hi h
    have hen := k.enabled_of (by simp [he]) (by simp [he])
    constructor <;> simp [State.enabled, engPendOk, Eng.inHold, Eng.command, mainPhase, pendingCtrl,
      isDataPhase, isReconfiguration]
    · exact k.statusLow
    · decide
    · decide
    · exact k.dataOpen _ hi rfl
    · exact k.resultForm
    · exact k.failedClosed
    · exact k.bitrateLegal
    · intro _; exact k.bitrateSelected hen
    · exact k.quiescentFault
  | launchByte d h =>
    have he := State.eng_of_first hi h
    have hen := k.enabled_of (by simp [he]) (by simp [he])
    constructor <;> simp [State.enabled, engPendOk, Eng.inHold, Eng.command, mainPhase, pendingCtrl,
      isDataPhase, isReconfiguration]
    · exact k.statusLow
    · decide
    · decide
    · exact k.dataOpen _ hi rfl
    · exact k.resultForm
    · exact k.failedClosed
    · exact k.bitrateLegal
    · intro _; exact k.bitrateSelected hen
    · exact k.quiescentFault
  | launchReceive d h =>
    have he := State.eng_of_first hi h
    have hen := k.enabled_of (by simp [he]) (by simp [he])
    constructor <;> simp [State.enabled, engPendOk, Eng.inHold, Eng.command, mainPhase, pendingCtrl,
      isDataPhase, isReconfiguration]
    · split <;> decide
    · exact k.statusLow
    · split <;> decide
    · split <;> decide
    · exact k.dataOpen _ hi rfl
    · exact k.resultForm
    · exact k.failedClosed
    · exact k.bitrateLegal
    · intro _; exact k.bitrateSelected hen
    · exact k.quiescentFault
  | held i h => exact k
  | startDone st h hv =>
    obtain ⟨he, hp, -⟩ := State.eng_of_mainDone hi h
    have hen := k.enabled_of (by simp [he]) (by simp [he])
    have hc := k.holdCtrl (by simp [he, Eng.inHold])
    simp only [hp, he, if_true] at hc
    constructor <;> simp [State.enabled, engPendOk, Eng.inHold, Eng.command, hp, hc, pendingCtrl]
    · decide
    · exact k.statusLow
    · decide
    · exact k.bitrateLegal
    · intro _; exact k.bitrateSelected hen
    · exact k.quiescentFault
  | dataDone i st hd h hv =>
    obtain ⟨he, hp, -⟩ := State.eng_of_mainDone hi h
    have hen := k.enabled_of (by simp [he]) (by simp [he])
    constructor <;> simp [engPendOk, Eng.inHold, Eng.command, hp]
    · exact k.ctrlReserved
    · exact k.statusLow
    · intro h; rw [State.enabled] at h hen; simp [hen] at h
    · simpa [hp] using k.stoPending
    · exact k.bitrateLegal
    · intro _; exact k.bitrateSelected hen
    · exact k.quiescentFault
  | nack i st h hv =>
    obtain ⟨he, hp, hst⟩ := State.eng_of_mainDone hi h
    have hen := k.enabled_of (by simp [he]) (by simp [he])
    have ho := k.dataOpen _ hi
    have hr := k.reconfigClosed _ hi
    have hso : stopOrigin i (some st) = true := by
      cases i <;> simp [classify] at hv
      · exact absurd hv (verdictStart_ne_nack _)
      · exact absurd hv (verdictStop_ne_nack _)
      · simpa [stopOrigin] using verdictSendAddress_nack hv
      · simpa [stopOrigin] using verdictSendByte_nack hv
      · exact absurd hv (verdictReceiveByte_ne_nack _)
    constructor <;> simp [State.enabled, engPendOk, Eng.inHold, Eng.command, pendingCtrl, hso]
    · exact k.statusLow
    · decide
    · exact ho
    · exact hr
    · exact k.resultForm
    · exact k.failedClosed
    · exact k.bitrateLegal
    · intro _; exact k.bitrateSelected hen
    · exact k.quiescentFault
  | failed i st hm h hv =>
    obtain ⟨he, hp, hst⟩ := State.eng_of_mainDone hi h
    have hen := k.enabled_of (by simp [he]) (by simp [he])
    constructor <;> simp [State.enabled, engPendOk, Eng.inHold, Eng.command]
    · exact k.statusLow
    · decide
    · decide
    · exact enc_form _ (by rw [hst]; exact maskStatus_low _)
    · exact k.bitrateLegal
    · intro _; exact k.bitrateSelected hen
    · exact k.quiescentFault
  | stopDone st h hv =>
    obtain ⟨he, hp, hst⟩ := State.eng_of_stopDone hi h
    have hen := k.enabled_of (by simp [he]) (by simp [he])
    constructor <;> simp [engPendOk, Eng.inHold, Eng.command, hp]
    · exact k.ctrlReserved
    · exact k.statusLow
    · intro h; rw [State.enabled] at h hen; simp [hen] at h
    · simpa [hp] using k.stoPending
    · exact k.bitrateLegal
    · intro _; exact k.bitrateSelected hen
    · exact k.quiescentFault
  | stopFailed st h hv =>
    obtain ⟨he, hp, hst⟩ := State.eng_of_stopDone hi h
    have hen := k.enabled_of (by simp [he]) (by simp [he])
    constructor <;> simp [State.enabled, engPendOk, Eng.inHold, Eng.command]
    · exact k.statusLow
    · decide
    · decide
    · exact enc_form _ (by rw [hst]; exact maskStatus_low _)
    · exact k.bitrateLegal
    · intro _; exact k.bitrateSelected hen
    · exact k.quiescentFault
  | nackDone i saved st h hv =>
    obtain ⟨he, hp, hst⟩ := State.eng_of_stopDone hi h
    have hen := k.enabled_of (by simp [he]) (by simp [he])
    have hs : saved &&& 0x07 = 0 := by
      have := k.engPend
      cases i <;> simp [he, engPendOk, stopOrigin] at this
      · rcases this.1 with h | h <;> subst h <;> decide
      · rw [this.1]; decide
    constructor <;> simp [engPendOk, Eng.inHold, Eng.command, hp]
    · exact k.ctrlReserved
    · exact k.statusLow
    · intro h; rw [State.enabled] at h hen; simp [hen] at h
    · simpa [hp] using k.stoPending
    · exact .inr hs
    · exact k.bitrateLegal
    · intro _; exact k.bitrateSelected hen
    · exact k.quiescentFault
  | nackFailed i saved st h hv =>
    obtain ⟨he, hp, hst⟩ := State.eng_of_stopDone hi h
    have hen := k.enabled_of (by simp [he]) (by simp [he])
    have hs : saved &&& 0x07 = 0 := by
      have := k.engPend
      cases i <;> simp [he, engPendOk, stopOrigin] at this
      · rcases this.1 with h | h <;> subst h <;> decide
      · rw [this.1]; decide
    constructor <;> simp [State.enabled, engPendOk, Eng.inHold, Eng.command]
    · exact k.statusLow
    · decide
    · decide
    · exact .inr hs
    · exact k.bitrateLegal
    · intro _; exact k.bitrateSelected hen
    · exact k.quiescentFault

/-- An ARG write keeps the invariant. -/
theorem State.Inv.setArg {s : State} (k : s.Inv) (v : Byte) : (s.setArg v).Inv :=
  ⟨k.ctrlReserved, k.statusLow, k.disabledCleared, k.engPend, k.holdCtrl, k.stoPending, k.dataOnBus, k.dataOpen,
    k.reconfigClosed, k.resultForm, k.failedClosed, k.bitrateLegal, k.bitrateSelected, k.quiescentFault⟩

/-- Raising a host fault keeps the invariant. -/
theorem State.Inv.raiseFault {s : State} (k : s.Inv) (f : FaultReason) : (s.raiseFault f).Inv :=
  ⟨k.ctrlReserved, k.statusLow, k.disabledCleared, k.engPend, k.holdCtrl, k.stoPending, k.dataOnBus, k.dataOpen,
    k.reconfigClosed, k.resultForm, k.failedClosed, k.bitrateLegal, k.bitrateSelected, by simp⟩

/-- Accepting a command that has passed the issue checks keeps the invariant. -/
theorem State.Inv.accept {s : State} (k : s.Inv) {op : Byte} {c : Instr} (h : issueCheck s op = .accept c) :
    (s.accept op c).Inv := by
  obtain ⟨he, -, hb, hr, hd⟩ := issueCheck_accept h
  have hp : s.pend = none := by simpa [he, engPendOk] using k.engPend
  refine ⟨k.ctrlReserved, k.statusLow, ?_, ?_, ?_, k.stoPending, k.dataOnBus, ?_,
    ?_, k.resultForm, k.failedClosed, k.bitrateLegal, k.bitrateSelected, k.quiescentFault⟩
  · intro hen
    obtain ⟨h1, h2, h3, -⟩ := k.disabledCleared hen
    exact ⟨h1, h2, h3, .inr (by simp [hb hen])⟩
  · simp [engPendOk, hp]
  · simp [Eng.inHold]
  · intro c' h; simp [Eng.command] at h; subst h; exact hd
  · intro c' h; simp [Eng.command] at h; subst h; exact hr

/-- A phase completion keeps the invariant, whatever the outcome. -/
theorem State.Inv.completePhase {s : State} (k : s.Inv) {p : Phase} (hp : s.pend = some p) (o : PhaseOutcome) :
    (s.completePhase p o).Inv := by
  have hen : s.enabled = true := by
    by_contra h
    have := (k.disabledCleared (by simpa using h)).2.1
    simp [hp] at this
  have hh : s.eng.inHold = true := by
    have := k.engPend
    rcases he : s.eng with _ | c | c | ⟨c, sv⟩ <;> simp [he, hp, engPendOk, Eng.inHold] at this ⊢
  constructor
  · exact (ctrlAfterCompletion_reserved _).trans k.ctrlReserved
  · exact (statusWithCode_low _ _).trans k.statusLow
  · intro h; rw [State.enabled] at h hen; simp [hen] at h
  · have := k.engPend
    rcases he : s.eng with _ | c | c | ⟨c, sv⟩ <;> simp [he, hp, engPendOk] at this ⊢
    · exact this.1
    · exact this.1
  · intro _; simp [k.holdCtrl hh, hp]
  · simp
  · simp
  · exact k.dataOpen
  · exact k.reconfigClosed
  · exact k.resultForm
  · exact k.failedClosed
  · exact k.bitrateLegal
  · intro h; exact k.bitrateSelected hen
  · exact k.quiescentFault

end Sys2Proof.Machine
end

