-- ==== Sys2Proof/Laws/PerInstr.lean ====
section
/-! SUPPORT. One law for each command: the word of a command is legal, its high byte is the command's opcode and its
low byte the command's operand (30_encoding.md R80 to R86). -/

namespace Sys2Proof.Laws.WordForm

/-- The word of the command is none of the illegal words of 30_encoding.md R86; its OP byte is in the high half and
its ARG byte in the low half (R80). -/
def Statement (i : Instr) : Prop :=
  wordLegal (encode i) = true ∧ (encode i).extractLsb' 8 8 = i.op ∧ (encode i).extractLsb' 0 8 = i.argByte

theorem beginCmd : Statement .beginCmd := by unfold Statement; decide

theorem endCmd : Statement .endCmd := by unfold Statement; decide

theorem setLowSpeed : Statement .setLowSpeed := by unfold Statement; decide

theorem setHighSpeed : Statement .setHighSpeed := by unfold Statement; decide

theorem start : Statement .start := by unfold Statement; decide

theorem stop : Statement .stop := by unfold Statement; decide

theorem sendAddress (a : BitVec 7) (d : BitVec 1) : Statement (.sendAddress a d) := by
  unfold Statement
  revert a d
  decide

theorem sendByte (d : Byte) : Statement (.sendByte d) := by
  unfold Statement
  revert d
  decide

theorem receiveByte (k : BitVec 1) : Statement (.receiveByte k) := by
  unfold Statement
  revert k
  decide

end Sys2Proof.Laws.WordForm
end

