-- ==== Sys2Proof/Laws/TraceOrder.lean ====
section
/-! SUPPORT. What each move of the machine does to the order of its trace: one lemma for each kind of move. -/

namespace Sys2Proof.Machine

/-- Reading a trace in two parts. -/
theorem Replay.readAll_append (r : Replay) (l m : List Event) :
    r.readAll (l ++ m) = match r.readAll l with | some r' => r'.readAll m | none => none := by
  induction l generalizing r with
  | nil => rfl
  | cons e l ih =>
    simp only [List.cons_append, Replay.readAll]
    cases r.read e with
    | none => rfl
    | some r' => exact ih r'

/-- The order of the trace speaks of the block only. -/
theorem State.TraceInOrder.congr {s t : State} (k : s.TraceInOrder) (h : s.SameBlock t) : t.TraceInOrder := by
  unfold State.TraceInOrder at *
  rw [h.trace, h.pend, h.busy, h.eng]
  exact k

/-- To keep the trace in order, a move only has to append events that read on from the machine's place. -/
theorem State.TraceInOrder.append {s t : State} (k : s.TraceInOrder) (l : List Event) (h : t.trace = s.trace ++ l)
    (hl : ({ pend := s.pend, busy := s.busy, stops := s.eng.stops, recoveries := 0, off := false } : Replay).readAll
      l = some { pend := t.pend, busy := t.busy, stops := t.eng.stops, recoveries := 0, off := false }) :
    t.TraceInOrder := by
  unfold State.TraceInOrder at *
  rw [h, Replay.readAll_append, k]
  exact hl

/-- Reset may come anywhere (60_exceptions.md R211). -/
theorem State.TraceInOrder.resetAct {s : State} (k : s.TraceInOrder) : s.resetAct.TraceInOrder :=
  k.append [.rst] rfl rfl

/-- ARG writes are not recorded (20_memory.md R65). -/
theorem State.TraceInOrder.setArg {s : State} (k : s.TraceInOrder) (v : Byte) : (s.setArg v).TraceInOrder := k
/-- A raised fault records nothing (20_memory.md R52). -/
theorem State.TraceInOrder.raiseFault {s : State} (k : s.TraceInOrder) (f : FaultReason) :
    (s.raiseFault f).TraceInOrder := k

/-- A command is accepted between commands only. -/
theorem State.TraceInOrder.accept {s : State} (k : s.TraceInOrder) (hi : s.Inv) {op : Byte} {c : Instr}
    (h : issueCheck s op = .accept c) : (s.accept op c).TraceInOrder := by
  obtain ⟨he, -⟩ := issueCheck_accept h
  have hp : s.pend = none := by simpa [he, engPendOk] using hi.engPend
  refine k.append _ rfl ?_
  simp [Replay.readAll, Replay.read, he, hp, State.busy, Eng.stops]

/-- A completion comes while its phase pends. -/
theorem State.TraceInOrder.completePhase {s : State} (k : s.TraceInOrder) {p : Phase} (hp : s.pend = some p)
    (o : PhaseOutcome) : (s.completePhase p o).TraceInOrder := by
  refine k.append _ rfl ?_
  cases hx : p.isRx <;> cases hb : decide (s.eng = .idle) <;>
    simp_all [Replay.readAll, Replay.read, State.busy]

/-- Every move of the engine keeps the trace in order. -/
theorem State.TraceInOrder.engine {s t : State} {i : Instr} (k : s.TraceInOrder) (hv : s.Inv)
    (hi : s.eng.command = some i) (m : EngineMove s i t) : t.TraceInOrder := by
  cases m with
  | held i h => exact k
  | startDone st h hv' | dataDone i st hd h hv' | nack i st h hv' | failed i st hm h hv' =>
    obtain ⟨he, hp, -⟩ := State.eng_of_mainDone hi h
    refine k.append _ (by simp; rfl) ?_
    simp [Replay.readAll, Replay.read, he, hp, State.busy, Eng.stops, Replay.rest]
  | stopDone st h hv' | stopFailed st h hv' | nackDone i saved st h hv' | nackFailed i saved st h hv' =>
    obtain ⟨he, hp, -⟩ := State.eng_of_stopDone hi h
    refine k.append _ (by simp; rfl) ?_
    simp [Replay.readAll, Replay.read, he, hp, State.busy, Eng.stops, Replay.rest]
  | _ =>
    have he := State.eng_of_first hi ‹_›
    have hp : s.pend = none := by simpa [he, engPendOk] using hv.engPend
    refine k.append _ (by simp; rfl) ?_
    simp [Replay.readAll, Replay.read, he, hp, State.busy, Eng.stops, Replay.rest]

end Sys2Proof.Machine
end

