-- ==== Sys2Proof/Tests/Slice0.lean ====
section
/-! SUPPORT. The model's own tests: ill-formed terms the checks refuse, words written out from the encoding tables, one
step of each command against the vectors of 95_test_vectors.md, and for each statement with hypotheses a concrete case
that meets them. -/

open Sys2Proof Sys2Proof.Machine

namespace Sys2Proof.Tests

/-! ### Small states (95_test_vectors.md, conventions) -/

/-- The clock of the vectors, 16 MHz; BASE is any address. -/
def testParams : Params :=
  { clock := ⟨16000000, by decide⟩, base := 0x40, statusDraw := .any }

/-- The state after reset, with the parameters of the vectors. -/
def fresh : State := { State.reset with params := testParams, env := .script [] }

/-- S_idle: after reset and BEGIN. -/
def idle : State := { fresh with ctrl := 0x44, bitrate := 0x48 }

/-- S_open: after reset, BEGIN and a successful START. -/
def opened : State := { idle with ctrl := 0xA4, status := 0x08, txnOpen := true }

/-- A command just accepted. -/
def issued (s : State) (c : Instr) : State := { s with eng := .issued c }

/-- A main phase pending. -/
def pending (c : Instr) (p : Phase) (ctrl : Byte) : State :=
  { opened with eng := .wMain c, pend := some p, ctrl := ctrl }

/-- A main phase completed with a status. -/
def completed (c : Instr) (status ctrl : Byte) : State :=
  { opened with eng := .wMain c, status := status, ctrl := ctrl }

/-- A stop phase completed with a status. -/
def stopped (c : Instr) (saved : Option Byte) (status : Byte) : State :=
  { opened with eng := .wStop c saved, status := status, ctrl := 0x84 }

/-- The next state of an outcome. -/
def nextState : Host.Outcome State Fault Refusal → Option State
  | .next t => some t
  | .fault _ => none
  | .refused _ => none

/-- The next state of a step where there is one. -/
def after (s : State) : State :=
  match step s with
  | .next t => t
  | .fault _ => s
  | .refused _ => s

/-- The next state of an engine step where there is one. -/
def afterExec (i : Instr) (s : State) : State :=
  match exec i s with
  | .next t => t
  | .fault _ => s
  | .refused _ => s

/-- CTRL, RESULT, txn_open and the trace of the next state. -/
def view (o : Host.Outcome State Fault Refusal) : Option (Byte × Byte × Bool × List Event) :=
  (nextState o).map fun t => (t.ctrl, t.result, t.txnOpen, t.trace)

/-- A check of the invariant that runs. -/
def invCheck (s : State) : Bool :=
  decide (s.ctrl &&& 0x0B = 0) && decide (s.status &&& 0x07 = 0) &&
  (s.enabled || (decide (s.ctrl = 0) && decide (s.pend = none) && !s.txnOpen &&
    (decide (s.eng = .idle) || decide (s.eng = .issued .beginCmd)))) &&
  engPendOk s.eng s.pend &&
  (!s.eng.inHold || decide (s.ctrl = if s.pend = none then ctrlAfterCompletion (pendingCtrl s.eng)
    else pendingCtrl s.eng)) &&
  (!ctrlSto s.ctrl || decide (s.pend = some .stop)) &&
  (match s.pend with
    | some (.addr b) => decide (s.data = b)
    | some (.tx b) => decide (s.data = b)
    | _ => true) &&
  (match s.eng.command with
    | some c => (!isDataPhase c || s.txnOpen) && (!isReconfiguration c || !s.txnOpen)
    | none => true) &&
  (decide (s.result = 0xFF) || decide (s.result &&& 0x07 = 0)) &&
  (decide (s.result = 0) || !s.txnOpen) &&
  (decide (s.bitrate = 0) || decide (s.bitrate = s.params.bitRateOf .low) ||
    decide (s.bitrate = s.params.bitRateOf .high)) &&
  (!s.enabled || decide (s.bitrate = s.params.bitRateOf s.speedSel)) &&
  (!s.quiescent || decide (s.fault ≠ none))

theorem inv_of_check (s : State) (h : invCheck s = true) : s.Inv := by
  simp only [invCheck, Bool.and_eq_true, Bool.or_eq_true, decide_eq_true_eq, Bool.not_eq_true'] at h
  obtain ⟨⟨⟨⟨⟨⟨⟨⟨⟨⟨⟨⟨h1, h2⟩, h3⟩, h4⟩, h5⟩, h6⟩, h7⟩, h8⟩, h9⟩, h10⟩, h11⟩, h12⟩, h13⟩ := h
  refine ⟨h1, h2, fun he => ?_, h4, fun hh => ?_, fun hs => ?_, fun b hb => ?_, fun c hc hd => ?_, fun c hc hr => ?_,
    h9, fun hr => ?_, ?_, fun he => ?_, fun hq => ?_⟩
  · rcases h3 with h | ⟨⟨⟨a, b⟩, c⟩, d⟩
    · simp [h] at he
    · exact ⟨a, b, c, d⟩
  · exact h5.resolve_left (by simp [hh])
  · exact h6.resolve_left (by simp [hs])
  · rcases hb with hb | hb <;> rw [hb] at h7 <;> simpa using h7
  · rw [hc] at h8
    simp only [Bool.and_eq_true, Bool.or_eq_true, Bool.not_eq_true'] at h8
    exact h8.1.resolve_left (by simp [hd])
  · rw [hc] at h8
    simp only [Bool.and_eq_true, Bool.or_eq_true, Bool.not_eq_true'] at h8
    exact h8.2.resolve_left (by simp [hr])
  · exact h10.resolve_left hr
  · rcases h11 with (h | h) | h
    · exact .inl h
    · exact .inr (.inl h)
    · exact .inr (.inr h)
  · exact h12.resolve_left (by simp [he])
  · exact h13.resolve_left (by simp [hq])

/-! ### Ill-formed terms are refused (30_encoding.md R86, R89) -/

theorem test_address_128_refused : (AsmLine.sendAddress 128 'W').wf = false := by decide

theorem test_direction_X_refused : (AsmLine.sendAddress 0 'X').wf = false := by decide

theorem test_sla_256_refused : (AsmLine.sendSla 256).wf = false := by decide

theorem test_byte_256_refused : (AsmLine.sendByte 256).wf = false := by decide

theorem test_write_address_128_refused : (AsmLine.write 128 0).wf = false := by decide

theorem test_write_byte_256_refused : (AsmLine.write 0 256).wf = false := by decide

theorem test_writeReg_address_128_refused : (AsmLine.writeReg 128 0 []).wf = false := by decide

theorem test_writeReg_selector_256_refused : (AsmLine.writeReg 0 256 []).wf = false := by decide

theorem test_writeReg_payload_256_refused : (AsmLine.writeReg 0 0 [1, 256]).wf = false := by decide

theorem test_assembler_refuses_the_listing : assemble [.start, .sendByte 256, .stop] = none := by decide

/-- 30_encoding.md R89, with the comment of 43_composite.md R161's listing. -/
theorem test_text_of_an_address : parseLine "SEND_ADDRESS 0x52, R   ; 0x12:(a << 1)".toList =
    some (.sendAddress 0x52 'R') := by decide

/-- 43_composite.md R162's example. -/
theorem test_text_of_write_reg : parseLine "WRITE_REG 0x52, 0x00, [0x11, 0x22, 0x33]".toList =
    some (.writeReg 0x52 0x00 [0x11, 0x22, 0x33]) := by decide

theorem test_text_refused : parseLine "SEND_BYTES 1".toList = none ∧ parseLine "RECEIVE_BYTE 1".toList = none := by
  decide

theorem test_illegal_words : ([0x0000, 0x0101, 0x0500, 0x1402, 0x1500, 0xFF00] : List CommandWord).all
    (fun w => !wordLegal w) = true := by decide

/-! ### Words written out from 30_encoding.md R82 and 95_test_vectors.md L1.1 decode to what they stand for -/

theorem test_decode_configuration : decode 0b0000000100000000 = .command .beginCmd ∧
    decode 0b0000010000000000 = .command .setHighSpeed := by decide

theorem test_decode_bus_conditions : decode 0b0001000000000000 = .command .start ∧
    decode 0b0001000100000000 = .command .stop := by decide

theorem test_decode_data_phase : decode 0b0001001011111110 = .command (.sendAddress 0x7F 0) ∧
    decode 0b0001001111001010 = .command (.sendByte 0xCA) ∧
    decode 0b0001010000000001 = .command (.receiveByte 1) := by decide

theorem test_table_word : decodeTableWord 16 0x12D0 = some (.sendAddress 0x68 0) ∧
    decodeTableWord 16 0x1402 = none := by decide

/-- 30_encoding.md R80: every command word is exactly 16 bits; a wider one is not placed (log 1). -/
theorem test_wide_word_places_nothing : decodeTableWord 24 0x000100 = none ∧ idle.withFetchWord 24 0x000100 = idle := by
  decide

/-- 30_encoding.md R86: a word that is no command is faulted by the issue checks. -/
theorem test_placed_illegal_word : ((nextState (step (idle.withFetchWord 16 0x1402))).map
    fun t => (t.fault, t.eng)) = some (some .illegal, .idle) := by decide

theorem test_fetch_runs_begin : ((nextState (step (State.reset.withFetchWord 16 0x0100))).map
    fun t => (t.ctrl, t.trace)) = some (0x44, [.cw 0x44, .res 0x00]) := by decide

/-! ### One step of each command (95_test_vectors.md, level 2) -/

/-- VC1. -/
theorem test_begin_after_reset : ((nextState (exec .beginCmd (issued fresh .beginCmd))).map
    fun t => (t.ctrl, t.status, t.bitrate, t.result)) = some (0x44, 0xF8, 0x48, 0x00) := by decide

/-- VC3: INT stays 1. -/
theorem test_begin_keeps_int :
    view (exec .beginCmd (issued { idle with ctrl := 0x84 } .beginCmd)) =
      some (0xC4, 0x00, false, [.cw 0x44, .res 0x00]) := by decide

/-- VC8: no STOP phase. -/
theorem test_end_in_a_transaction :
    view (exec .endCmd (issued opened .endCmd)) = some (0x00, 0x00, false, [.cw 0x00, .res 0x00]) := by decide

/-- VC5. -/
theorem test_set_low_speed : ((nextState (exec .setLowSpeed
    (issued { idle with bitrate := 0x0C, speedSel := .high } .setLowSpeed))).map
    fun t => (t.bitrate, t.engstat, t.trace)) = some (0x48, 0x00, [.res 0x00]) := by decide

/-- VC4. -/
theorem test_set_high_speed : ((nextState (exec .setHighSpeed (issued idle .setHighSpeed))).map
    fun t => (t.bitrate, t.engstat, t.ctrl)) = some (0x0C, 0x02, 0x44) := by decide

/-- VS10: CTRL while START pends. -/
theorem test_start_launch :
    view (exec .start (issued idle .start)) = some (0x24, 0x00, false, [.cw 0xA4, .ph .start]) := by decide

/-- VS6: a bus error reports 0xFF. -/
theorem test_start_bus_error :
    view (exec .start (completed .start 0x00 0xA4)) =
      some (0x44, 0xFF, false, [.cw 0x00, .cw 0x44, .res 0xFF]) := by decide

/-- VP5: CTRL while STOP pends. -/
theorem test_stop_launch :
    view (exec .stop (issued opened .stop)) = some (0x14, 0x00, true, [.cw 0x94, .ph .stop]) := by decide

/-- VP2: a failed stop recovers once. -/
theorem test_stop_failed :
    view (exec .stop (stopped .stop none 0x08)) =
      some (0x44, 0x08, false, [.cw 0x00, .cw 0x44, .res 0x08]) := by decide

/-- VA3: the code does not match the direction, a success. -/
theorem test_send_address_other_ack :
    view (exec (.sendAddress 0x52 0) (completed (.sendAddress 0x52 0) 0x40 0x84)) =
      some (0x84, 0x00, true, [.res 0x00]) := by decide

/-- VA7: the NACK status is reported, not the failed stop's. -/
theorem test_send_address_nack_stop_fails :
    view (exec (.sendAddress 0x52 0) (stopped (.sendAddress 0x52 0) (some 0x20) 0x00)) =
      some (0x44, 0x20, false, [.cw 0x00, .cw 0x44, .res 0x20]) := by decide

/-- VB3: a NACK launches a STOP phase. -/
theorem test_send_byte_nack :
    view (exec (.sendByte 0xFF) (completed (.sendByte 0xFF) 0x30 0x84)) =
      some (0x14, 0x00, true, [.cw 0x94, .ph .stop]) := by decide

/-- VB6: an address code is a failure. -/
theorem test_send_byte_address_code :
    view (exec (.sendByte 0x10) (completed (.sendByte 0x10) 0x18 0x84)) =
      some (0x44, 0x18, false, [.cw 0x00, .cw 0x44, .res 0x18]) := by decide

/-- VR3: the code does not match k, a success. -/
theorem test_receive_other_code :
    view (exec (.receiveByte 1) (completed (.receiveByte 1) 0x58 0xC4)) =
      some (0xC4, 0x00, true, [.res 0x00]) := by decide

/-- VR7: RECEIVE_BYTE has no NACK path. -/
theorem test_receive_nack_code :
    view (exec (.receiveByte 0) (completed (.receiveByte 0) 0x30 0x84)) =
      some (0x44, 0x30, false, [.cw 0x00, .cw 0x44, .res 0x30]) := by decide

/-! ### The environment, the host and reset -/

/-- 95_test_vectors.md, the legal clocks: 16.5 MHz gives about 100610 Hz, and the quotient is not rounded (log 22). -/
theorem test_bus_clock :
    ({ testParams with clock := ⟨16500000, by decide⟩ } : Params).sclHz 0x4A 0 = 16500000 / 164 := by
  show ((16500000 : Nat) : Rat) / ((164 : Nat) : Rat) = 16500000 / 164
  norm_num

/-- VR1: the completion of an RX phase writes DATA. -/
theorem test_rx_completion : ((nextState (step { pending (.receiveByte 1) (.rx 1) 0x44 with
    turns := [.complete (outcomeOf 0x50 0x3C)] })).map fun t => (t.ctrl, t.status, t.data, t.trace)) =
      some (0xC4, 0x50, 0x3C, [.oc 0x50 (some 0x3C)]) := by decide

/-- VF2, VF6, VF7, VF11, VF13: the first check that holds is the fault. -/
theorem test_issue_faults :
    issueCheck { pending .start .start 0x24 with arg := 0x01 } 0x01 = .reject .busy ∧
    issueCheck { fresh with arg := 0x01 } 0x01 = .reject .illegal ∧
    issueCheck fresh 0x10 = .reject .disabled ∧
    issueCheck opened 0x03 = .reject .midTxn ∧
    issueCheck idle 0x13 = .reject .noTxn := by decide

/-- VF17: a 16-bit access to ARG. -/
theorem test_wide_access : ((nextState (step { idle with turns := [.access (.write 0x44 2 0x00)] })).map
    fun t => (t.fault, t.arg)) = some (some .hostAccess, 0x00) := by decide

/-- VX4: reset between a completion and the engine step. -/
theorem test_reset_abandons : ((nextState (step { completed .start 0x38 0xA4 with turns := [.reset] })).map
    fun t => (t.eng, t.result, t.trace)) = some (.idle, 0x00, [.rst]) := by decide

/-! ### Cases that meet the hypotheses of the statements -/

theorem witness_EncodeOfDecodeIsTheWord :
    decode 0x1401 = .command (.receiveByte 1) := by decide

theorem witness_DecodeFollowsTheOneMatchingRow :
    (0x12A5 : CommandWord) &&& OpRow.sendAddressRow.mask = OpRow.sendAddressRow.pattern ∧
    ∀ r ∈ OpRow.all, (0x1500 : CommandWord) &&& r.mask ≠ r.pattern := by decide

theorem witness_IllegalWordsFaultAtIssue :
    fresh.eng = .idle ∧ decode (commandWord 0x15 fresh.arg) = .illegal .reservedOpcode ∧
    decode (commandWord 0x14 0x02) = .illegal .reservedArgBits := by decide

theorem witness_AssemblerWordsAndRefusals :
    (127 : Nat) ≤ 127 ∧ (255 : Nat) ≤ 255 ∧ (127 : Nat) < 128 ∧ ('X' ≠ 'W' ∧ 'X' ≠ 'R') ∧ (255 : Nat) < 256 := by decide

theorem witness_ResetRestoresEveryRegister :
    ({ opened with turns := [.reset], quiescent := true, fault := some .midTxn } : State).turns = .reset :: [] := rfl

theorem witness_EngstatReadsBusyAndSpeed :
    (∃ s t : State, step s = .next t ∧ s.engstat.getLsbD 0 = false ∧ t.engstat.getLsbD 0 = true) ∧
    (∃ s t : State, step s = .next t ∧ s.engstat.getLsbD 0 = true ∧ t.engstat.getLsbD 0 = false) :=
  ⟨⟨{ fresh with turns := [.access (.write 0x45 1 0x01)] }, after { fresh with turns := [.access (.write 0x45 1 0x01)] },
      rfl, by decide, by decide⟩,
    ⟨{ issued fresh .beginCmd with turns := [.engine] }, after { issued fresh .beginCmd with turns := [.engine] },
      rfl, by decide, by decide⟩⟩

theorem witness_HostReadsHaveNoSideEffect :
    (∃ (s : State) (off : Nat) (v : Byte), off = 0 ∧ s.quiescent = false ∧
      s.turns = .access (.read (s.params.base + off) 1) :: [] ∧
      [s.ctrl, s.status, s.data, s.bitrate, s.arg, 0x00, s.result, s.engstat][off]? = some v) ∧
    (∃ (s : State) (off : Nat) (v : Byte), off = 7 ∧ s.quiescent = false ∧
      s.turns = .access (.read (s.params.base + off) 1) :: [] ∧
      [s.ctrl, s.status, s.data, s.bitrate, s.arg, 0x00, s.result, s.engstat][off]? = some v) ∧ idle.Inv :=
  ⟨⟨{ idle with turns := [.access (.read 0x40 1)] }, 0, 0x44, rfl, rfl, rfl, rfl⟩,
    ⟨{ idle with turns := [.access (.read 0x47 1)] }, 7, 0x00, rfl, rfl, rfl, rfl⟩, inv_of_check _ (by decide)⟩

theorem witness_HostWritesReachArgAndCmdOnly :
    (∃ s : State, s.quiescent = false ∧ s.turns = .access (.write (s.params.base + 4) 1 0xFF) :: []) ∧
    (∃ s : State, s.quiescent = false ∧ s.turns = .access (.write (s.params.base + 5) 1 0x10) :: [] ∧
      issueCheck s 0x10 = .accept .start) ∧
    (∃ s : State, s.quiescent = false ∧ s.turns = .access (.write (s.params.base + 5) 1 0x13) :: [] ∧
      issueCheck s 0x13 = .reject .noTxn) ∧
    (∃ s : State, s.quiescent = false ∧ s.turns = .access (.write (s.params.base + 0) 1 0xFF) :: []) ∧
    (∃ s : State, s.quiescent = false ∧ s.turns = .access (.write (s.params.base + 7) 1 0xFF) :: []) :=
  ⟨⟨{ idle with turns := [.access (.write 0x44 1 0xFF)] }, rfl, rfl⟩,
    ⟨{ idle with turns := [.access (.write 0x45 1 0x10)] }, rfl, rfl, by decide⟩,
    ⟨{ idle with turns := [.access (.write 0x45 1 0x13)] }, rfl, rfl, by decide⟩,
    ⟨{ idle with turns := [.access (.write 0x40 1 0xFF)] }, rfl, rfl⟩,
    ⟨{ idle with turns := [.access (.write 0x47 1 0xFF)] }, rfl, rfl⟩⟩

theorem witness_WideAccessesFault :
    (∃ (s : State) (a : Access), a = .read 0x3F 2 ∧ s.quiescent = false ∧ s.turns = .access a :: [] ∧ a.width ≠ 0 ∧
      a.width ≠ 1 ∧ a.addr < s.params.base + 8 ∧ s.params.base < a.addr + a.width) ∧
    (∃ (s : State) (a : Access), a = .write 0x47 4 0x00 ∧ s.quiescent = false ∧ s.turns = .access a :: [] ∧
      a.width ≠ 0 ∧ a.width ≠ 1 ∧ a.addr < s.params.base + 8 ∧ s.params.base < a.addr + a.width) ∧
    (∃ (s : State) (a : Access), s.quiescent = false ∧ s.turns = .access a :: [] ∧ s.params.base + 8 ≤ a.addr) ∧
    (∃ (s : State) (a : Access), s.quiescent = false ∧ s.turns = .access a :: [] ∧
      a.addr + a.width ≤ s.params.base) :=
  ⟨⟨{ idle with turns := [.access (.read 0x3F 2)] }, .read 0x3F 2, rfl, rfl, rfl, by decide⟩,
    ⟨{ idle with turns := [.access (.write 0x47 4 0x00)] }, .write 0x47 4 0x00, rfl, rfl, rfl, by decide⟩,
    ⟨{ idle with turns := [.access (.read 0x48 1)] }, .read 0x48 1, rfl, rfl, by decide⟩,
    ⟨{ idle with turns := [.access (.read 0x3F 1)] }, .read 0x3F 1, rfl, rfl, by decide⟩⟩

theorem witness_IssueChecksComeInOrder :
    (issued idle .stop).eng ≠ .idle ∧ idle.eng = .idle ∧
    decode (commandWord 0x00 idle.arg) = .illegal .reservedOpcode ∧
    (fresh.enabled = false ∧ decode (commandWord 0x02 fresh.arg) = .command .endCmd) ∧
    (opened.enabled = true ∧ opened.txnOpen = true ∧ decode (commandWord 0x04 opened.arg) = .command .setHighSpeed) ∧
    (idle.enabled = true ∧ idle.txnOpen = false ∧ decode (commandWord 0x12 idle.arg) = .command (.sendAddress 0 0)) ∧
    decode (commandWord 0x11 idle.arg) = .command .stop := by decide

theorem witness_IssueChecksComeInOrder_disabled :
    fresh.Inv ∧ fresh.enabled = false :=
  ⟨inv_of_check _ (by decide), by decide⟩

theorem witness_FaultsAreNeverCleared :
    ∃ s t : State, s.fault ≠ none ∧ s.turns = .reset :: [] ∧ step s = .next t :=
  ⟨{ idle with fault := some .illegal, quiescent := true, turns := [.reset] },
    after { idle with fault := some .illegal, quiescent := true, turns := [.reset] }, by decide, rfl, rfl⟩

theorem witness_QuiescentStatesStopUntilReset :
    ∃ s : State, s.quiescent = true ∧ s.turns = .engine :: [] ∧ Turn.engine ≠ .reset :=
  ⟨{ issued idle .stop with fault := some .busy, quiescent := true, turns := [.engine] }, rfl, rfl, by decide⟩

theorem witness_DisabledBlockTakesOnlyBegin :
    (∃ s t : State, s.eng = .issued .endCmd ∧ exec .endCmd s = .next t) ∧
    (∃ s : State, s.Inv ∧ s.eng = .idle ∧ s.enabled = false ∧ s.quiescent = false ∧
      decode (commandWord 0x10 s.arg) = .command .start ∧ Instr.start ≠ .beginCmd ∧
      s.turns = .access (.write (s.params.base + 5) 1 0x10) :: []) :=
  ⟨⟨issued idle .endCmd, afterExec .endCmd (issued idle .endCmd), rfl, rfl⟩,
    ⟨{ fresh with turns := [.access (.write 0x45 1 0x10)] }, inv_of_check _ (by decide), rfl, rfl, rfl, by decide,
      by decide, rfl⟩⟩

theorem witness_EngineStepRunsTheLatchedCommand :
    (∃ s : State, s.quiescent = false ∧ s.eng.command = some .start ∧ s.turns = .engine :: []) ∧
    (∃ s : State, s.quiescent = false ∧ s.eng.command = some .start ∧ s.engineReady = true ∧ s.turns = []) ∧
    decodeTableWord 16 0x1000 = some .start :=
  ⟨⟨{ issued idle .start with turns := [.engine] }, rfl, rfl, rfl⟩, ⟨issued idle .start, rfl, rfl, rfl, rfl⟩, by decide⟩

theorem witness_IssuedWordIsTheCommandRun :
    ∃ s : State, s.quiescent = false ∧ decode (commandWord 0x12 s.arg) = .command (.sendAddress 0x52 1) ∧
    issueCheck s 0x12 = .accept (.sendAddress 0x52 1) ∧
    s.turns = .access (.write (s.params.base + 5) 1 0x12) :: .engine :: [] :=
  ⟨{ opened with arg := 0xA5, turns := [.access (.write 0x45 1 0x12), .engine] }, rfl, by decide, by decide, rfl⟩

theorem witness_CtrlAndDataWriteRule :
    ctrlOff.getLsbD 2 = false ∧ ctrlStop.getLsbD 2 = true := by decide

theorem witness_LaunchesFollowAnEnablingWrite :
    (∃ s t : State, s.Inv ∧ s.eng.command = some (.sendByte 0x10) ∧ exec (.sendByte 0x10) s = .next t) ∧
    (∃ s t : State, s.Inv ∧ step s = .next t ∧ s.pend ≠ some .start ∧ t.pend = some .start) ∧
    (∃ s t : State, Turn.environment ≠ .engine ∧ s.takeTurn .environment = .next t ∧ t.pend ≠ s.pend) :=
  ⟨⟨issued opened (.sendByte 0x10), afterExec (.sendByte 0x10) (issued opened (.sendByte 0x10)),
      inv_of_check _ (by decide), rfl, rfl⟩,
    ⟨issued idle .start, after (issued idle .start), inv_of_check _ (by decide), rfl, by decide, by decide⟩,
    ⟨{ pending .start .start 0x24 with env := .ack [] },
      after { pending .start .start 0x24 with env := .ack [], turns := [.environment] }, by decide, rfl, by decide⟩⟩

theorem witness_PhaseCompletionRule :
    (∃ (s : State) (o : PhaseOutcome), s.quiescent = false ∧ s.turns = .complete o :: [] ∧ s.pend = some (.rx 1) ∧
      drawAllows s.params.statusDraw (.rx 1) o.code = true) ∧
    (∃ (s : State) (o : PhaseOutcome), s.quiescent = false ∧ s.turns = .complete o :: [] ∧ s.pend = none) ∧
    (∃ s : State, s.Inv ∧ s.pend = some (.addr 0xA4)) ∧ (∃ s : State, s.Inv ∧ s.pend = some (.tx 0x10)) :=
  ⟨⟨{ pending (.receiveByte 1) (.rx 1) 0x44 with turns := [.complete (outcomeOf 0x50 0x3C)] }, outcomeOf 0x50 0x3C,
      rfl, rfl, rfl, rfl⟩,
    ⟨{ idle with turns := [.complete (outcomeOf 0x50 0x3C)] }, outcomeOf 0x50 0x3C, rfl, rfl, rfl⟩,
    ⟨{ pending (.sendAddress 0x52 0) (.addr 0xA4) 0x04 with data := 0xA4 }, inv_of_check _ (by decide), rfl⟩,
    ⟨{ pending (.sendByte 0x10) (.tx 0x10) 0x04 with data := 0x10 }, inv_of_check _ (by decide), rfl⟩⟩

theorem witness_EnvironmentDrawsFromItsSet :
    (0xA4 : Byte).getLsbD 0 = false ∧ (0xA5 : Byte).getLsbD 0 = true ∧
    ∃ s : State, s.pend = some .stop ∧ drawAllows s.params.statusDraw .stop (codeOfStatus 0x38) = false :=
  ⟨by decide, by decide, { pending .stop .stop 0x14 with params := { testParams with statusDraw := .protocol } }, rfl,
    by decide⟩

theorem witness_AckEnvironmentAnswersItsTable :
    ∃ s : State, s.env = .ack [0x3C, 0x7E] ∧ s.pend = some (.rx 0) ∧ s.quiescent = false ∧
    s.turns = .environment :: [] :=
  ⟨{ pending (.receiveByte 0) (.rx 0) 0x04 with env := .ack [0x3C, 0x7E], turns := [.environment] }, rfl, rfl, rfl, rfl⟩

theorem witness_HoldsEndOnlyByCompletionOrReset :
    ∃ s t : State, s.Inv ∧ s.pend = some .start ∧ step s = .next t :=
  ⟨{ pending .start .start 0x24 with turns := [.engine] }, after { pending .start .start 0x24 with turns := [.engine] },
    inv_of_check _ (by decide), rfl, rfl⟩

theorem witness_UnansweredPhaseHangsForever :
    ∃ s : State, s.turns = [] ∧ s.env = .script [] ∧ s.quiescent = false ∧ s.pend = some .start ∧
    s.eng.inHold = true ∧ s.host.stage = .poll :=
  ⟨{ pending .start .start 0x24 with host := { lines := [.command .start], hpc := 0, last := 0x00, stage := .poll } },
    rfl, rfl, rfl, rfl, rfl, rfl⟩

theorem witness_ClassificationTable :
    ∃ (a : BitVec 7) (d : BitVec 1), Instr.sendAddress 0x52 1 = .sendAddress a d :=
  ⟨0x52, 1, rfl⟩

theorem witness_NamedConditionsHaveTheirCategory :
    (∃ (a : BitVec 7) (d : BitVec 1), Instr.sendAddress 0x52 1 = .sendAddress a d) ∧
    (∃ b, Instr.sendByte 0xFF = .sendByte b) ∧ ∃ k, Instr.receiveByte 0 = .receiveByte k :=
  ⟨⟨0x52, 1, rfl⟩, ⟨0xFF, rfl⟩, ⟨0, rfl⟩⟩

theorem witness_FailureResultsAreNeverZero :
    (0x38 : Byte) ≠ 0x00 := by decide

theorem witness_StopSequenceRule :
    (0x38 : Byte) ≠ 0xF8 ∧ ∃ s : State, s.Inv ∧ s.eng = .wStop .stop none ∧ s.pend = none :=
  ⟨by decide, stopped .stop none 0xF8, inv_of_check _ (by decide), rfl, rfl⟩

theorem witness_FailedCommandsLeaveAnEnabledClosedBlock :
    ∃ s t : State, s.Inv ∧ s.eng.command = some .start ∧ exec .start s = .next t ∧ t.eng = .idle ∧ t.result ≠ 0x00 ∧
    decode (commandWord 0x13 t.arg) = .command (.sendByte 0x00) :=
  ⟨completed .start 0x38 0xA4, afterExec .start (completed .start 0x38 0xA4), inv_of_check _ (by decide), rfl, rfl,
    by decide, by decide, by decide⟩

theorem witness_BeginRule :
    fresh.arg = 0x00 ∧ (issued fresh .beginCmd).eng = .issued .beginCmd := by decide

theorem witness_EndRule :
    idle.arg = 0x00 ∧ (issued opened .endCmd).eng = .issued .endCmd ∧
    ∃ t : State, exec .endCmd (issued opened .endCmd) = .next t ∧
      decode (commandWord 0x10 t.arg) = .command .start ∧ Instr.start ≠ .beginCmd :=
  ⟨by decide, rfl, afterExec .endCmd (issued opened .endCmd), rfl, by decide, by decide⟩

theorem witness_SetLowSpeedRule :
    (issued idle .setLowSpeed).eng = .issued .setLowSpeed ∧
    ∃ s : State, s.eng = .idle ∧ s.arg = 0x00 ∧ s.enabled = true ∧ s.txnOpen = false ∧ s.quiescent = false ∧
      s.turns = [.access (.write (s.params.base + 5) 1 0x03), .engine,
        .access (.write (s.params.base + 5) 1 0x04), .engine,
        .access (.write (s.params.base + 5) 1 0x03), .engine] ++ [] :=
  ⟨rfl, { idle with turns := [.access (.write 0x45 1 0x03), .engine, .access (.write 0x45 1 0x04), .engine,
      .access (.write 0x45 1 0x03), .engine] }, rfl, rfl, rfl, rfl, rfl, rfl⟩

theorem witness_SetHighSpeedRule :
    idle.arg = 0x00 ∧ (issued idle .setHighSpeed).eng = .issued .setHighSpeed := by decide

theorem witness_BitRateConstants :
    ∃ c : LegalClock, c.hz = 16000000 :=
  ⟨testParams.clock, rfl⟩

theorem witness_BitrateAndPrescalerDoNotMatter :
    ∃ t, exec .start (issued idle .start) = .next t :=
  ⟨afterExec .start (issued idle .start), rfl⟩

theorem witness_StartRule :
    idle.arg = 0x00 ∧ (issued idle .start).eng = .issued .start ∧
    ((pending .start .start 0x24).eng = .wMain .start ∧ (pending .start .start 0x24).pend = some .start) ∧
    ((completed .start 0x10 0xA4).eng = .wMain .start ∧ (completed .start 0x10 0xA4).pend = none ∧
      (completed .start 0x10 0xA4).maskedStatus = 0x10) ∧
    (completed .start 0x38 0xA4).maskedStatus ≠ 0x08 ∧ (completed .start 0x38 0xA4).maskedStatus ≠ 0x10 ∧
    (completed .start 0x08 0xA4).Inv :=
  ⟨by decide, by decide, by decide, by decide, by decide, by decide, inv_of_check _ (by decide)⟩

theorem witness_StopRule :
    idle.arg = 0x00 ∧ (issued idle .stop).eng = .issued .stop ∧
    (∃ s : State, s.eng = .wStop .stop none ∧ s.pend = some .stop) ∧
    ((stopped .stop none 0xF8).eng = .wStop .stop none ∧ (stopped .stop none 0xF8).pend = none ∧
      (stopped .stop none 0xF8).maskedStatus = 0xF8) ∧
    (stopped .stop none 0x38).maskedStatus ≠ 0xF8 ∧ (stopped .stop none 0xF8).Inv :=
  ⟨by decide, by decide, ⟨{ stopped .stop none 0x08 with pend := some .stop, ctrl := 0x14 }, rfl, rfl⟩, by decide,
    by decide, inv_of_check _ (by decide)⟩

theorem witness_SendAddressRule :
    (0xA5 : Byte) = ((0x52 : BitVec 7).setWidth 8 <<< 1) ||| (1 : BitVec 1).setWidth 8 ∧
    ({ opened with arg := 0xA5 } : State).arg = 0xA5 ∧
    (issued opened (.sendAddress 0x52 1)).eng = .issued (.sendAddress 0x52 1) ∧
    ((pending (.sendAddress 0x52 1) (.addr 0xA5) 0x04).eng = .wMain (.sendAddress 0x52 1) ∧
      (pending (.sendAddress 0x52 1) (.addr 0xA5) 0x04).pend = some (.addr 0xA5)) ∧
    (completed (.sendAddress 0x52 1) 0x18 0x84).maskedStatus = 0x18 ∧
    (completed (.sendAddress 0x52 1) 0x48 0x84).maskedStatus = 0x48 ∧
    (completed (.sendAddress 0x52 1) 0x00 0x84).maskedStatus ∉ [0x18, 0x40, 0x20, 0x48] ∧
    ((stopped (.sendAddress 0x52 1) (some 0x48) 0xF8).eng = .wStop (.sendAddress 0x52 1) (some 0x48) ∧
      (stopped (.sendAddress 0x52 1) (some 0x48) 0xF8).pend = none ∧
      (stopped (.sendAddress 0x52 1) (some 0x48) 0xF8).maskedStatus = 0xF8) ∧
    (stopped (.sendAddress 0x52 1) (some 0x48) 0x38).maskedStatus ≠ 0xF8 ∧
    (completed (.sendAddress 0x52 1) 0x40 0x84).Inv :=
  ⟨by decide, by decide, by decide, by decide, by decide, by decide, by decide, by decide, by decide,
    inv_of_check _ (by decide)⟩

theorem witness_SendByteRule :
    ({ opened with arg := 0x10 } : State).arg = 0x10 ∧
    (issued opened (.sendByte 0x10)).eng = .issued (.sendByte 0x10) ∧
    ((pending (.sendByte 0x10) (.tx 0x10) 0x04).eng = .wMain (.sendByte 0x10) ∧
      (pending (.sendByte 0x10) (.tx 0x10) 0x04).pend = some (.tx 0x10)) ∧
    (completed (.sendByte 0x10) 0x28 0x84).maskedStatus = 0x28 ∧
    (completed (.sendByte 0x10) 0x30 0x84).maskedStatus = 0x30 ∧
    ((completed (.sendByte 0x10) 0x00 0x84).maskedStatus ≠ 0x28 ∧
      (completed (.sendByte 0x10) 0x00 0x84).maskedStatus ≠ 0x30) ∧
    ((stopped (.sendByte 0x10) (some 0x30) 0xF8).pend = none ∧
      (stopped (.sendByte 0x10) (some 0x30) 0xF8).maskedStatus = 0xF8) ∧
    (stopped (.sendByte 0x10) (some 0x30) 0x38).maskedStatus ≠ 0xF8 ∧
    (completed (.sendByte 0x10) 0x28 0x84).Inv :=
  ⟨by decide, by decide, by decide, by decide, by decide, by decide, by decide, by decide, inv_of_check _ (by decide)⟩

theorem witness_ReceiveByteRule :
    ({ opened with arg := 0x01 } : State).arg = (1 : BitVec 1).setWidth 8 ∧
    (issued opened (.receiveByte 1)).eng = .issued (.receiveByte 1) ∧
    ((pending (.receiveByte 1) (.rx 1) 0x44).eng = .wMain (.receiveByte 1) ∧
      (pending (.receiveByte 1) (.rx 1) 0x44).pend = some (.rx 1)) ∧
    (completed (.receiveByte 1) 0x58 0xC4).maskedStatus = 0x58 ∧
    ((completed (.receiveByte 0) 0x38 0x84).maskedStatus ≠ 0x50 ∧
      (completed (.receiveByte 0) 0x38 0x84).maskedStatus ≠ 0x58) ∧
    (completed (.receiveByte 1) 0x50 0xC4).Inv ∧ (completed (.receiveByte 0) 0x58 0x84).Inv :=
  ⟨by decide, by decide, by decide, by decide, by decide, inv_of_check _ (by decide), inv_of_check _ (by decide)⟩

theorem witness_EveryStepKeepsTheInvariant :
    ∃ s t : State, s.Inv ∧ step s = .next t ∧ s ≠ t :=
  ⟨completed .start 0x38 0xA4, after (completed .start 0x38 0xA4), inv_of_check _ (by decide), rfl, by decide⟩

theorem witness_EveryStepKeepsTheTraceInOrder :
    ∃ s t : State, s.Inv ∧ s.TraceInOrder ∧ step s = .next t ∧ t.result ≠ 0x00 :=
  ⟨{ completed .start 0x38 0xA4 with trace := [.issue 0x10 0x00, .cw 0xA4, .ph .start, .oc 0x38 none] },
    after { completed .start 0x38 0xA4 with trace := [.issue 0x10 0x00, .cw 0xA4, .ph .start, .oc 0x38 none] },
    inv_of_check _ (by decide), rfl, rfl, by decide⟩

theorem witness_ParametersNeverChange :
    ∃ t, step idle = .next t :=
  ⟨after idle, rfl⟩

theorem witness_OnlyThreeCommandsWriteBitrate :
    (∃ s t : State, step s = .next t ∧ t.bitrate ≠ s.bitrate ∧ t.trace = [.cw 0x44, .res 0x00]) ∧
    (∃ s t : State, step s = .next t ∧ t.bitrate ≠ s.bitrate ∧ t.trace = [.rst]) :=
  ⟨⟨issued fresh .beginCmd, after (issued fresh .beginCmd), rfl, by decide, by decide⟩,
    ⟨{ idle with turns := [.reset] }, after { idle with turns := [.reset] }, rfl, by decide, by decide⟩⟩

theorem witness_OnlySpeedCommandsChangeTheSelection :
    (∃ s t : State, step s = .next t ∧ t.speedSel ≠ s.speedSel) ∧
    (∃ s t : State, s.eng = .issued .beginCmd ∧ exec .beginCmd s = .next t) :=
  ⟨⟨issued idle .setHighSpeed, after (issued idle .setHighSpeed), rfl, by decide⟩,
    ⟨issued fresh .beginCmd, afterExec .beginCmd (issued fresh .beginCmd), rfl, rfl⟩⟩

theorem witness_TransactionsOpenAndCloseByRule :
    (∃ s t : State, step s = .next t ∧ s.txnOpen = false ∧ t.txnOpen = true) ∧
    (∃ s t : State, step s = .next t ∧ s.txnOpen = true ∧ t.txnOpen = false) ∧
    (∃ s t : State, s.eng = .wMain .start ∧ s.pend = none ∧ exec .start s = .next t ∧ t.result = 0x00) ∧
    (∃ s t : State, s.eng = .issued .endCmd ∧ exec .endCmd s = .next t) :=
  ⟨⟨{ completed .start 0x08 0xA4 with txnOpen := false }, after { completed .start 0x08 0xA4 with txnOpen := false }, rfl,
      by decide, by decide⟩,
    ⟨stopped .stop none 0xF8, after (stopped .stop none 0xF8), rfl, by decide, by decide⟩,
    ⟨completed .start 0x10 0xA4, afterExec .start (completed .start 0x10 0xA4), rfl, rfl, rfl, by decide⟩,
    ⟨issued opened .endCmd, afterExec .endCmd (issued opened .endCmd), rfl, rfl⟩⟩

theorem witness_ResultChangesOnlyAtFinish :
    ∃ s t : State, step s = .next t ∧ t.result ≠ s.result :=
  ⟨completed .start 0x38 0xA4, after (completed .start 0x38 0xA4), rfl, by decide⟩

theorem witness_StatusChangesOnlyAtCompletion :
    ∃ s t : State, s.Inv ∧ step s = .next t ∧ t.status ≠ s.status :=
  ⟨{ pending .start .start 0x24 with turns := [.complete (outcomeOf 0x10 0x00)] },
    after { pending .start .start 0x24 with turns := [.complete (outcomeOf 0x10 0x00)] }, inv_of_check _ (by decide), rfl,
    by decide⟩

theorem witness_DataStaysUntilTheNextTransfer :
    (∃ s t : State, step s = .next t ∧ t.data ≠ s.data ∧ s.eng = .issued (.sendByte 0x10)) ∧
    (∃ s t : State, step s = .next t ∧ t.data ≠ s.data ∧ s.pend = some (.rx 1)) ∧
    (∃ s t : State, step s = .next t ∧ t.data ≠ s.data ∧ s.turns = [.reset]) :=
  ⟨⟨issued opened (.sendByte 0x10), after (issued opened (.sendByte 0x10)), rfl, by decide, rfl⟩,
    ⟨{ pending (.receiveByte 1) (.rx 1) 0x44 with turns := [.complete (outcomeOf 0x50 0x3C)] },
      after { pending (.receiveByte 1) (.rx 1) 0x44 with turns := [.complete (outcomeOf 0x50 0x3C)] }, rfl, by decide,
      rfl⟩,
    ⟨{ opened with data := 0x3C, turns := [.reset] }, after { opened with data := 0x3C, turns := [.reset] }, rfl,
      by decide, rfl⟩⟩

theorem witness_ArgWritesDoNotTouchTheCommandInFlight :
    (∃ s : State, s.quiescent = false ∧ s.eng ≠ .idle ∧
      s.turns = .access (.write (s.params.base + 4) 1 0xFF) :: []) ∧
    (∃ s : State, s.quiescent = false ∧ s.turns = .access (.read (s.params.base + 4) 1) :: []) ∧
    ∃ t, exec (.sendByte 0x10) (issued opened (.sendByte 0x10)) = .next t :=
  ⟨⟨{ issued opened (.sendByte 0x10) with turns := [.access (.write 0x44 1 0xFF)] }, rfl, by decide, rfl⟩,
    ⟨{ idle with turns := [.access (.read 0x44 1)] }, rfl, rfl⟩,
    afterExec (.sendByte 0x10) (issued opened (.sendByte 0x10)), rfl⟩

theorem witness_OnlyBeginLeavesTheDisabledState :
    (∃ s t : State, s.Inv ∧ step s = .next t ∧ s.enabled = false ∧ t.enabled = true) ∧
    (∃ s t : State, s.Inv ∧ step s = .next t ∧ s.enabled = true ∧ t.enabled = false) :=
  ⟨⟨issued fresh .beginCmd, after (issued fresh .beginCmd), inv_of_check _ (by decide), rfl, by decide, by decide⟩,
    ⟨issued opened .endCmd, after (issued opened .endCmd), inv_of_check _ (by decide), rfl, by decide, by decide⟩⟩

theorem witness_RunProgramLoop :
    (∃ s : State, s.quiescent = false ∧ s.turns = .run [.command .start] :: []) ∧
    (∃ s : State, s.host.stage = .fetch ∧ s.host.lines[s.host.hpc]? = some (.command .start)) ∧
    (∃ s : State, s.host.stage = .deliver 0x10 ∧ issueCheck s 0x10 = .accept .start) ∧
    (∃ s : State, s.host.stage = .deliver 0x13 ∧ issueCheck s 0x13 = .reject .noTxn) ∧
    (∃ s : State, s.host.stage = .poll ∧ s.eng ≠ .idle) ∧ (∃ s : State, s.host.stage = .poll ∧ s.eng = .idle) ∧
    (∃ s : State, s.host.stage = .result ∧ s.result ≠ 0x00) ∧ (∃ s : State, s.host.stage = .result ∧ s.result = 0x00) ∧
    (∃ s : State, s.host.stage = .fetch ∧ s.host.lines[s.host.hpc]? = none) ∧
    (∃ s : State, s.host.stage = .fetch ∧ s.host.lines[s.host.hpc]? = some (.read .data)) :=
  ⟨⟨{ idle with turns := [.run [.command .start]] }, rfl, rfl⟩, ⟨idle.startRun [.command .start], rfl, rfl⟩,
    ⟨idle.hostGoto (.deliver 0x10), rfl, by decide⟩, ⟨idle.hostGoto (.deliver 0x13), rfl, by decide⟩,
    ⟨(issued idle .start).hostGoto .poll, rfl, by decide⟩, ⟨idle.hostGoto .poll, rfl, rfl⟩,
    ⟨({ idle with result := 0x38 } : State).hostGoto .result, rfl, by decide⟩, ⟨idle.hostGoto .result, rfl, rfl⟩,
    ⟨idle.startRun [], rfl, rfl⟩, ⟨idle.startRun [.read .data], rfl, rfl⟩⟩

theorem witness_WriteLeavesTheTransactionOpen :
    ∃ s : State, s.eng = .idle ∧ s.pend = none ∧ s.enabled = true ∧ s.quiescent = false ∧ s.fault = none ∧
    s.turns = [] ∧ s.env = .ack [] ∧
    s.host = { lines := writeLines 0x52 0x7E, hpc := 0, last := 0x00, stage := .fetch } :=
  ⟨({ idle with env := .ack [] } : State).startRun (writeLines 0x52 0x7E), rfl, rfl, rfl, rfl, rfl, rfl, rfl, rfl⟩

theorem witness_WriteRegSendsEveryByteAndStops :
    ∃ s : State, s.eng = .idle ∧ s.pend = none ∧ s.enabled = true ∧ s.quiescent = false ∧ s.fault = none ∧
    s.turns = [] ∧ s.env = .ack [] ∧
    s.host = { lines := writeRegLines 0x52 0x00 [0x11, 0x22, 0x33], hpc := 0, last := 0x00, stage := .fetch } :=
  ⟨({ idle with env := .ack [] } : State).startRun (writeRegLines 0x52 0x00 [0x11, 0x22, 0x33]), rfl, rfl, rfl, rfl, rfl,
    rfl, rfl, rfl⟩

theorem witness_WriteRegStopsAtTheFirstNack :
    (∃ s : State, s.eng = .idle ∧ s.pend = none ∧ s.enabled = true ∧ s.quiescent = false ∧ s.fault = none ∧
      s.turns = [] ∧ 3 ≤ ([0x11, 0x22, 0x33] : List Byte).length ∧
      drawAllows s.params.statusDraw .stop (outcomeOf 0xF8 0x00).code = true ∧
      s.env = .script ([outcomeOf 0x08 0x00, outcomeOf 0x18 0x00] ++ List.replicate 3 (outcomeOf 0x28 0x00) ++
        [outcomeOf 0x30 0x00, outcomeOf 0xF8 0x00] ++ []) ∧
      s.host = { lines := writeRegLines 0x52 0x00 [0x11, 0x22, 0x33], hpc := 0, last := 0x00, stage := .fetch }) ∧
    (∃ s : State, s.eng = .idle ∧ s.pend = none ∧ s.enabled = true ∧ s.quiescent = false ∧ s.fault = none ∧
      s.turns = [] ∧ 0 ≤ ([] : List Byte).length ∧
      drawAllows s.params.statusDraw .stop (outcomeOf 0x00 0x00).code = true ∧
      s.env = .script ([outcomeOf 0x08 0x00, outcomeOf 0x18 0x00] ++ List.replicate 0 (outcomeOf 0x28 0x00) ++
        [outcomeOf 0x30 0x00, outcomeOf 0x00 0x00] ++ []) ∧
      s.host = { lines := writeRegLines 0x52 0x00 [], hpc := 0, last := 0x00, stage := .fetch }) ∧
    (∃ s : State, s.eng = .idle ∧ s.pend = none ∧ s.enabled = true ∧ s.quiescent = false ∧ s.fault = none ∧
      s.turns = [] ∧ ((0x48 : Byte) = 0x20 ∨ (0x48 : Byte) = 0x48) ∧
      drawAllows s.params.statusDraw (.addr (slaByte 0x52 0)) (codeOfStatus 0x48) = true ∧
      drawAllows s.params.statusDraw .stop (outcomeOf 0x38 0x00).code = true ∧
      s.env = .script ([outcomeOf 0x08 0x00, outcomeOf 0x48 0x00, outcomeOf 0x38 0x00] ++ []) ∧
      s.host = { lines := writeRegLines 0x52 0x00 [0x11], hpc := 0, last := 0x00, stage := .fetch }) :=
  ⟨⟨({ idle with env := .script ([outcomeOf 0x08 0x00, outcomeOf 0x18 0x00] ++
        List.replicate 3 (outcomeOf 0x28 0x00) ++ [outcomeOf 0x30 0x00, outcomeOf 0xF8 0x00] ++ []) } : State).startRun
      (writeRegLines 0x52 0x00 [0x11, 0x22, 0x33]), rfl, rfl, rfl, rfl, rfl, rfl, by decide, rfl, rfl, rfl⟩,
    ⟨({ idle with env := .script ([outcomeOf 0x08 0x00, outcomeOf 0x18 0x00] ++
        List.replicate 0 (outcomeOf 0x28 0x00) ++ [outcomeOf 0x30 0x00, outcomeOf 0x00 0x00] ++ []) } : State).startRun
      (writeRegLines 0x52 0x00 []), rfl, rfl, rfl, rfl, rfl, rfl, by decide, rfl, rfl, rfl⟩,
    ⟨({ idle with env := .script ([outcomeOf 0x08 0x00, outcomeOf 0x48 0x00, outcomeOf 0x38 0x00] ++ []) } :
      State).startRun (writeRegLines 0x52 0x00 [0x11]), rfl, rfl, rfl, rfl, rfl, rfl, by decide, rfl, rfl, rfl, rfl⟩⟩

end Sys2Proof.Tests
end

section
/-! SUPPORT. What the moves of the machine do to BUSY, the settings, the open transaction, the parameters and the
recorded fault (10_state.md R24 to R38): one lemma for each fact the statements of 10_state.md need. -/

namespace Sys2Proof.Machine

variable {s t : State} {i : Instr}

/-! ### ENGSTAT (10_state.md R28) -/

theorem State.engstat_bit0 (s : State) : s.engstat.getLsbD 0 = s.busy :=
  engstatBusy_value s.busy s.speedSel

theorem State.engstat_bit1 (s : State) : s.engstat.getLsbD 1 = decide (s.speedSel = .high) := by
  unfold State.engstat
  cases s.busy <;> cases s.speedSel <;> rfl

theorem State.engstat_reserved (s : State) : s.engstat &&& 0xFC = 0x00 := by
  unfold State.engstat
  cases s.busy <;> cases s.speedSel <;> rfl

theorem State.engstat_busy_set (s : State) : s.engstat.getLsbD 0 = true ↔ s.eng ≠ .idle := by
  rw [State.engstat_bit0, State.busy, decide_eq_true_iff]

theorem State.engstat_busy_clear (s : State) : s.engstat.getLsbD 0 = false ↔ s.eng = .idle := by
  rw [State.engstat_bit0, State.busy, decide_eq_false_iff_not, not_not]

theorem State.engstat_idle_low {s : State} (he : s.eng = .idle) (hv : s.speedSel = .low) : s.engstat = 0x00 := by
  simp [State.engstat, State.busy, engstatValue, he, hv]

/-! ### A listed turn in a live state, and a byte access to a register of the window -/

/-- A listed turn in a state that is not quiescent is that agent's move. -/
theorem step_liveTurn {k : Turn} {rest : List Turn} (hq : s.quiescent = false) (h : s.turns = k :: rest) :
    step s = (s.setTurns rest).agentTurn k := by
  rw [step_turn h, takeTurn_agent (by exact hq)]

/-- A listed reset turn resets, whatever the state (70_reset_and_hazards.md R240). -/
theorem step_resetTurn {rest : List Turn} (h : s.turns = .reset :: rest) :
    step s = .next (s.setTurns rest).resetAct := by
  rw [step_turn h, takeTurn_reset]

theorem regAt_regOffset (r : Reg) : regAt (regOffset r) = some r := by
  cases r <;> rfl

theorem regOffset_lt (r : Reg) : regOffset r < 8 := by
  cases r <;> decide

/-- A byte access at a register's offset touches the window (20_memory.md R50). -/
theorem touchesWindow_of_register {base : Nat} {a : Access} (r : Reg) (ha : a.addr = base + regOffset r)
    (hw : a.width = 1) : touchesWindow base a = true := by
  have := regOffset_lt r
  simp [touchesWindow, ha, hw]
  omega

/-- A byte read at a register's offset notes the register's value (20_memory.md R53). -/
theorem State.hostAccess_read (s : State) (r : Reg) :
    s.hostAccess (.read (s.params.base + regOffset r) 1) = s.noteRead (s.hostRead r) := by
  have ht := touchesWindow_of_register (a := .read (s.params.base + regOffset r) 1) r rfl rfl
  simp [State.hostAccess, ht, Access.addr, Access.width, regAt_regOffset]

/-- A byte write at a register's offset is the write of that register (20_memory.md R52). -/
theorem State.hostAccess_write (s : State) (r : Reg) (v : Byte) :
    s.hostAccess (.write (s.params.base + regOffset r) 1 v) = s.hostWrite r v := by
  have ht := touchesWindow_of_register (a := .write (s.params.base + regOffset r) 1 v) r rfl rfl
  simp [State.hostAccess, ht, Access.addr, Access.width, regAt_regOffset]

/-! ### What an engine move keeps and changes -/

theorem EngineMove.params_eq (m : EngineMove s i t) : t.params = s.params := by
  cases m <;> rfl

theorem EngineMove.fault_eq (m : EngineMove s i t) : t.fault = s.fault := by
  cases m <;> rfl

/-- An engine move that ends in IDLE has run Finish, unless it held (60_exceptions.md R203). -/
theorem EngineMove.finished (m : EngineMove s i t) (ht : t.eng = .idle) :
    t = s ∨ ∃ events, t.trace = s.trace ++ events ++ [.res t.result] := by
  cases m with
  | held i h => exact .inl rfl
  | launchStart h | launchStop h | launchAddress a d h | launchByte d h | launchReceive k h | nack i st h hv =>
    cases ht
  | setLowSpeed h | setHighSpeed h | startDone st h hv | dataDone i st hd h hv | stopDone st h hv
  | nackDone i saved st h hv => exact .inr ⟨[], by simp⟩
  | beginCmd h => exact .inr ⟨[.cw ctrlBegin], by simp⟩
  | endCmd h => exact .inr ⟨[.cw ctrlOff], by simp⟩
  | failed i st hm h hv | stopFailed st h hv | nackFailed i saved st h hv =>
    exact .inr ⟨[.cw 0x00, .cw 0x44], by simp⟩

/-- An engine move that changes BITRATE is BEGIN's or a speed command's (10_state.md R24). -/
theorem EngineMove.bitrate_changed (m : EngineMove s i t) (hi : s.eng.command = some i)
    (hne : t.bitrate ≠ s.bitrate) :
    (s.eng = .issued .beginCmd ∧ t.bitrate = s.params.bitRateOf s.speedSel) ∨
      (s.eng = .issued .setLowSpeed ∧ t.bitrate = s.params.bitRateOf .low) ∨
      (s.eng = .issued .setHighSpeed ∧ t.bitrate = s.params.bitRateOf .high) := by
  cases m with
  | beginCmd h => exact .inl ⟨State.eng_of_first hi h, rfl⟩
  | setLowSpeed h => exact .inr (.inl ⟨State.eng_of_first hi h, rfl⟩)
  | setHighSpeed h => exact .inr (.inr ⟨State.eng_of_first hi h, rfl⟩)
  | _ => exact absurd rfl hne

/-- An engine move that changes SPEED_SEL is a speed command's (10_state.md R29). -/
theorem EngineMove.speedSel_changed (m : EngineMove s i t) (hi : s.eng.command = some i)
    (hne : t.speedSel ≠ s.speedSel) :
    (s.eng = .issued .setLowSpeed ∧ t.speedSel = .low) ∨ (s.eng = .issued .setHighSpeed ∧ t.speedSel = .high) := by
  cases m with
  | setLowSpeed h => exact .inl ⟨State.eng_of_first hi h, rfl⟩
  | setHighSpeed h => exact .inr ⟨State.eng_of_first hi h, rfl⟩
  | _ => exact absurd rfl hne

/-- An engine move opens a transaction only by START's success (10_state.md R31). -/
theorem EngineMove.txn_opened (m : EngineMove s i t) (hi : s.eng.command = some i) (hs : s.txnOpen = false)
    (ht : t.txnOpen = true) : s.eng = .wMain .start ∧ t.eng = .idle ∧ t.result = 0x00 := by
  cases m with
  | startDone st h hv => exact ⟨(State.eng_of_mainDone hi h).1, rfl, rfl⟩
  | endCmd h | failed i st hm h hv | stopDone st h hv | stopFailed st h hv | nackDone i saved st h hv
  | nackFailed i saved st h hv => cases ht
  | _ => exact absurd (hs.symm.trans ht) Bool.false_ne_true

/-- An engine move closes a transaction only by END, after a stop phase, or by a recovery (10_state.md R31). -/
theorem EngineMove.txn_closed (m : EngineMove s i t) (hi : s.eng.command = some i) (hs : s.txnOpen = true)
    (ht : t.txnOpen = false) :
    s.eng = .issued .endCmd ∨ ((∃ c saved, s.eng = .wStop c saved) ∧ s.pend = none) ∨
      ∃ r, t.trace = s.trace ++ [.cw 0x00, .cw 0x44, .res r] := by
  cases m with
  | endCmd h => exact .inl (State.eng_of_first hi h)
  | stopDone st h hv | stopFailed st h hv | nackDone i saved st h hv | nackFailed i saved st h hv =>
    obtain ⟨he, hp, -⟩ := State.eng_of_stopDone hi h
    exact .inr (.inl ⟨⟨_, _, he⟩, hp⟩)
  | failed i st hm h hv => exact .inr (.inr ⟨enc st, s.failExit_trace st⟩)
  | startDone st h hv => cases ht
  | _ => exact absurd (ht.symm.trans hs) Bool.false_ne_true

/-! ### What a step keeps and changes -/

/-- The settings of the block, its open transaction and its parameters are the same. -/
structure State.SameSettings (s t : State) : Prop where
  bitrate : t.bitrate = s.bitrate
  speedSel : t.speedSel = s.speedSel
  txnOpen : t.txnOpen = s.txnOpen
  params : t.params = s.params

/-- Only an engine move and reset change the settings: the environment and the host's accesses keep them. -/
theorem step_settings (h : step s = .next t) :
    s.SameSettings t ∨ (∃ u, s.SameBlock u ∧ t = u.resetAct) ∨
      ∃ u i, s.SameBlock u ∧ u.eng.command = some i ∧ EngineMove u i t := by
  cases step_move h with
  | outside k | argWrite v k | accepted op c hc k | faulted f k =>
    exact .inl ⟨k.bitrate, k.speedSel, k.txnOpen, k.params⟩
  | completion u p o k hp ha ht =>
    subst ht
    exact .inl ⟨k.bitrate, k.speedSel, k.txnOpen, k.params⟩
  | reset u k ht => exact .inr (.inl ⟨u, k, ht⟩)
  | engine u i k hi he => exact .inr (.inr ⟨u, i, k, hi, exec_move he⟩)

/-- Reset, up to what is outside the block, appends RST. -/
theorem State.SameBlock.resetAct_trace {u : State} (k : s.SameBlock u) :
    u.resetAct.trace = s.trace ++ [.rst] := by
  rw [State.resetAct_trace, k.trace]

/-- A step keeps the recorded fault or records another (10_state.md R33). -/
theorem step_fault (h : step s = .next t) : t.fault = s.fault ∨ ∃ f, t.fault = some f := by
  cases step_move h with
  | outside k | argWrite v k | accepted op c hc k => exact .inl k.fault
  | completion u p o k hp ha ht => subst ht; exact .inl k.fault
  | reset u k ht => subst ht; exact .inl k.fault
  | engine u i k hi he => exact .inl ((exec_move he).fault_eq.trans k.fault)
  | faulted f k => exact .inr ⟨f, k.fault⟩

/-- The engine leaves IDLE only where a command is issued (10_state.md R28, R30). -/
theorem step_leaves_idle (h : step s = .next t) (hs : s.eng = .idle) (ht : t.eng ≠ .idle) :
    ∃ op arg, t.trace = s.trace ++ [.issue op arg] := by
  cases step_move h with
  | outside k | argWrite v k | faulted f k => exact absurd (k.eng.trans hs) ht
  | completion u p o k hp ha e => subst e; exact absurd (k.eng.trans hs) ht
  | reset u k e => subst e; exact absurd rfl ht
  | engine u i k hi he => rw [k.eng, hs] at hi; cases hi
  | accepted op c hc k => exact ⟨op, s.arg, k.trace⟩

/-- The engine comes back to IDLE only by Finish or by reset (10_state.md R28, R30). -/
theorem step_enters_idle (h : step s = .next t) (hs : s.eng ≠ .idle) (ht : t.eng = .idle) :
    (∃ events, t.trace = s.trace ++ events ++ [.res t.result]) ∨ t.trace = s.trace ++ [.rst] := by
  cases step_move h with
  | outside k | argWrite v k | faulted f k => exact absurd (k.eng.symm.trans ht) hs
  | completion u p o k hp ha e => subst e; exact absurd (k.eng.symm.trans ht) hs
  | reset u k e => subst e; exact .inr k.resetAct_trace
  | engine u i k hi he =>
    rcases (exec_move he).finished ht with e | e
    · exact absurd (k.eng.symm.trans (e ▸ ht)) hs
    · exact .inl (k.trace ▸ e)
  | accepted op c hc k => exact absurd (k.eng.symm.trans ht) (by simp)

/-! ### The command in flight does not see ARG (10_state.md R25) -/

/-- The outcome with `f` applied to the next state, if there is one. -/
def mapNext (f : State → State) : Host.Outcome State Fault Refusal → Host.Outcome State Fault Refusal
  | .next s => .next (f s)
  | .fault r => .fault r
  | .refused r => .refused r

theorem State.stage_setArg (s : State) (v : Byte) : (s.setArg v).stage = s.stage := rfl

theorem State.stopSeqEnd_setArg (s : State) (st v : Byte) :
    (s.setArg v).stopSeqEnd st = (s.stopSeqEnd st).setArg v := by
  unfold State.stopSeqEnd
  cases verdictStop st <;> rfl

theorem State.sendDone_setArg (s : State) (w : Verdict) (st v : Byte) (c : Instr) :
    (s.setArg v).sendDone w st c = (s.sendDone w st c).setArg v := by
  cases w <;> rfl

theorem State.nackDone_setArg (s : State) (saved st v : Byte) :
    (s.setArg v).nackDone saved st = (s.nackDone saved st).setArg v := by
  simp only [State.nackDone, State.stopSeqEnd_setArg]
  rfl

theorem State.configStep_setArg {s done done' : State} {v : Byte} (hd : done' = done.setArg v) :
    (s.setArg v).configStep done' = mapNext (·.setArg v) (s.configStep done) := by
  subst hd
  unfold State.configStep
  rw [State.stage_setArg]
  cases s.stage <;> rfl

theorem execStart_setArg (s : State) (v : Byte) :
    execStart (s.setArg v) = mapNext (·.setArg v) (execStart s) := by
  unfold execStart
  rw [State.stage_setArg]
  cases s.stage with
  | mainDone st =>
    dsimp only
    cases verdictStart st <;> rfl
  | _ => rfl

theorem execStop_setArg (s : State) (v : Byte) :
    execStop (s.setArg v) = mapNext (·.setArg v) (execStop s) := by
  unfold execStop
  simp only [State.stage_setArg, State.stopSeqEnd_setArg]
  cases s.stage with
  | stopDone saved st =>
    cases saved with
    | none =>
      dsimp only
      cases verdictStop st <;> rfl
    | some _ => rfl
  | _ => rfl

theorem execSendAddress_setArg (a : BitVec 7) (d : BitVec 1) (s : State) (v : Byte) :
    execSendAddress a d (s.setArg v) = mapNext (·.setArg v) (execSendAddress a d s) := by
  unfold execSendAddress
  simp only [State.stage_setArg, State.sendDone_setArg, State.nackDone_setArg]
  cases s.stage with
  | stopDone saved st => cases saved <;> rfl
  | _ => rfl

theorem execSendByte_setArg (d : Byte) (s : State) (v : Byte) :
    execSendByte d (s.setArg v) = mapNext (·.setArg v) (execSendByte d s) := by
  unfold execSendByte
  simp only [State.stage_setArg, State.sendDone_setArg, State.nackDone_setArg]
  cases s.stage with
  | stopDone saved st => cases saved <;> rfl
  | _ => rfl

theorem execReceiveByte_setArg (k : BitVec 1) (s : State) (v : Byte) :
    execReceiveByte k (s.setArg v) = mapNext (·.setArg v) (execReceiveByte k s) := by
  unfold execReceiveByte
  rw [State.stage_setArg]
  cases s.stage with
  | mainDone st =>
    dsimp only
    cases verdictReceiveByte st <;> rfl
  | _ => rfl

/-- An engine step does the same with another ARG, and leaves that ARG where it is (10_state.md R25). -/
theorem exec_setArg (i : Instr) (s : State) (v : Byte) :
    exec i (s.setArg v) = mapNext (·.setArg v) (exec i s) := by
  cases i with
  | beginCmd => exact State.configStep_setArg rfl
  | endCmd => exact State.configStep_setArg rfl
  | setLowSpeed => exact State.configStep_setArg rfl
  | setHighSpeed => exact State.configStep_setArg rfl
  | start => exact execStart_setArg s v
  | stop => exact execStop_setArg s v
  | sendAddress a d => exact execSendAddress_setArg a d s v
  | sendByte d => exact execSendByte_setArg d s v
  | receiveByte k => exact execReceiveByte_setArg k s v

end Sys2Proof.Machine
end

section
/-! The statements about the state (10_state.md). -/

namespace Sys2Proof.Machine

/-- Settles O8: the reset turn is `State.resetAct` in every state, quiescent or not. -/
theorem resetRestoresEveryRegister : Obligations.ResetRestoresEveryRegister := by
  refine ⟨fun s rest h => ⟨_, step_resetTurn h, ?_⟩, rfl⟩
  exact ⟨rfl, rfl, rfl, rfl, rfl, rfl, State.engstat_idle_low rfl rfl, rfl, rfl, rfl, rfl, rfl, rfl, rfl⟩

/-- Settles O10: BUSY is read from the engine state, which leaves IDLE by an accepted issue only and comes back by
Finish or reset only. -/
theorem engstatReadsBusyAndSpeed : Obligations.EngstatReadsBusyAndSpeed := by
  refine ⟨fun s => ⟨s.engstat_busy_set, ?_, s.engstat_reserved⟩, fun s op c => ?_, fun s r => ?_,
    fun s t h hs ht => ?_, fun s t h hs ht => ?_, fun s v => rfl, State.engstat_idle_low rfl rfl⟩
  · rw [State.engstat_bit1, decide_eq_true_iff]
  · exact (State.engstat_busy_set _).mpr Eng.noConfusion
  · exact (State.engstat_busy_clear _).mpr (s.finish_eng r)
  · exact step_leaves_idle h (s.engstat_busy_clear.mp hs) (t.engstat_busy_set.mp ht)
  · exact step_enters_idle h (s.engstat_busy_set.mp hs) (t.engstat_busy_clear.mp ht)

/-- Settles O15: no move clears the fault, and a final state has none. -/
theorem faultsAreNeverCleared : Obligations.FaultsAreNeverCleared := by
  refine ⟨fun s t hf h => ?_, fun s rest h => ⟨_, step_resetTurn h, rfl⟩, fun s r hf hfin => hf hfin.2, rfl⟩
  rcases step_fault h with e | ⟨f, e⟩ <;> rw [e]
  · exact hf
  · exact Option.some_ne_none f

/-- Settles O47: reset and the environment keep the parameters, and so does every engine move. -/
theorem parametersNeverChange : Obligations.ParametersNeverChange := by
  intro s t h
  rcases step_settings h with k | ⟨u, k, rfl⟩ | ⟨u, i, k, -, m⟩
  · exact k.params
  · exact k.params
  · exact m.params_eq.trans k.params

/-- Settles O48: a step that changes BITRATE is a reset or an engine move, and of these only three write it. -/
theorem onlyThreeCommandsWriteBitrate : Obligations.OnlyThreeCommandsWriteBitrate := by
  refine ⟨fun s t h hne => ?_, fun s v => rfl, rfl⟩
  rcases step_settings h with k | ⟨u, k, rfl⟩ | ⟨u, i, k, hi, m⟩
  · exact absurd k.bitrate hne
  · exact .inr (.inr (.inr ⟨k.resetAct_trace, rfl⟩))
  · have hw := m.bitrate_changed hi (k.bitrate ▸ hne)
    rw [k.eng, k.params, k.speedSel] at hw
    exact hw.imp_right (.imp_right .inl)

/-- Settles O49: a step that changes SPEED_SEL is a reset or one of the speed commands. -/
theorem onlySpeedCommandsChangeTheSelection : Obligations.OnlySpeedCommandsChangeTheSelection := by
  refine ⟨fun s t h hne => ?_, State.engstat_bit1, fun s t _ h => ?_, rfl, rfl, rfl⟩
  · rcases step_settings h with k | ⟨u, k, rfl⟩ | ⟨u, i, k, hi, m⟩
    · exact absurd k.speedSel hne
    · exact .inr (.inr ⟨k.resetAct_trace, rfl⟩)
    · have hw := m.speedSel_changed hi (k.speedSel ▸ hne)
      rw [k.eng] at hw
      exact hw.imp_right .inl
  · obtain ⟨-, rfl⟩ := State.configStep_next h
    exact ⟨rfl, rfl⟩

/-- A START that finishes with result 0 has succeeded, and has opened the transaction (41_bus_conditions.md
R120). -/
theorem execStart_opens {s t : State} (he : s.eng = .wMain .start) (hp : s.pend = none)
    (h : exec .start s = .next t) (hr : t.result = 0x00) : t.txnOpen = true := by
  simp only [exec, execStart, State.stage_wMain_done he hp] at h
  split at h <;> cases h
  · rfl
  · exact absurd hr (enc_ne_zero _)
  · exact absurd hr (enc_ne_zero _)

/-- Settles O50: reset closes, and of the engine's moves START's success opens while END, the end of a stop phase and
a recovery close. -/
theorem transactionsOpenAndCloseByRule : Obligations.TransactionsOpenAndCloseByRule := by
  refine ⟨fun s t h hs ht => ?_, fun s t h hs ht => ?_, fun s t => execStart_opens, fun s st => ?_, fun s => rfl,
    fun s t _ h => ?_, fun s => rfl, rfl⟩
  · rcases step_settings h with k | ⟨u, k, rfl⟩ | ⟨u, i, k, hi, m⟩
    · exact absurd ((k.txnOpen.trans hs).symm.trans ht) Bool.false_ne_true
    · cases ht
    · exact k.eng ▸ m.txn_opened hi (k.txnOpen.trans hs) ht
  · rcases step_settings h with k | ⟨u, k, rfl⟩ | ⟨u, i, k, hi, m⟩
    · exact absurd (ht.symm.trans (k.txnOpen.trans hs)) Bool.false_ne_true
    · exact .inl k.resetAct_trace
    · have hc := m.txn_closed hi (k.txnOpen.trans hs) ht
      rw [k.eng, k.pend, k.trace] at hc
      exact .inr hc
  · rcases s.stopSeqEnd_cases st with ⟨-, e⟩ | ⟨-, e⟩ <;> rw [e] <;> rfl
  · obtain ⟨-, rfl⟩ := State.configStep_next h
    rfl

/-- Settles O54: the ARG accesses are byte accesses at ARG's offset, and `exec` commutes with an ARG write. -/
theorem argWritesDoNotTouchTheCommandInFlight : Obligations.ArgWritesDoNotTouchTheCommandInFlight := by
  refine ⟨fun s rest v hq h => ?_, fun s rest hq h => ?_, fun i s t v h => ?_, rfl⟩
  · rw [step_liveTurn hq h]
    exact congrArg Host.Outcome.next ((s.setTurns rest).hostAccess_write .arg v)
  · rw [step_liveTurn hq h]
    exact congrArg Host.Outcome.next ((s.setTurns rest).hostAccess_read .arg)
  · exact (exec_setArg i s v).trans (congrArg (mapNext (·.setArg v)) h)

end Sys2Proof.Machine
end

section
/-! SUPPORT. Engine writes, launches and the always-acknowledging environment (20_memory.md R53, R58, R59, R64): the
facts the statements of 20_memory.md need. -/

namespace Sys2Proof.Machine

variable {s t u : State} {i : Instr} {p : Phase}

/-! ### The register window (20_memory.md R53) -/

/-- The registers stand in the window in the order of their offsets (10_state.md R20). -/
theorem State.hostRead_of_offset (s : State) {off : Nat} {v : Byte}
    (h : [s.ctrl, s.status, s.data, s.bitrate, s.arg, 0x00, s.result, s.engstat][off]? = some v) :
    ∃ r, off = regOffset r ∧ v = s.hostRead r := by
  match off, h with
  | 0, rfl => exact ⟨.ctrl, rfl, rfl⟩
  | 1, rfl => exact ⟨.status, rfl, rfl⟩
  | 2, rfl => exact ⟨.data, rfl, rfl⟩
  | 3, rfl => exact ⟨.bitrate, rfl, rfl⟩
  | 4, rfl => exact ⟨.arg, rfl, rfl⟩
  | 5, rfl => exact ⟨.cmd, rfl, rfl⟩
  | 6, rfl => exact ⟨.result, rfl, rfl⟩
  | 7, rfl => exact ⟨.engstat, rfl, rfl⟩

theorem State.Inv.statusReserved (k : s.Inv) : s.status &&& 0x04 = 0x00 := by
  have low : ∀ x : Byte, x &&& 0x07 = 0 → x &&& 0x04 = 0 := by decide
  exact low _ k.statusLow

/-! ### CTRL writes (20_memory.md R58) -/

/-- A write with EN = 0 clears CTRL and abandons the pending phase. -/
theorem State.ctrlWrite_disabling (s : State) {v : Byte} (hv : ctrlEn v = false) :
    s.ctrlWrite v = { s with trace := s.trace ++ [.cw v], ctrl := 0x00, pend := none } := by
  simp [State.ctrlWrite, ctrlAfterWrite, hv]

/-- A write with EN = 1 keeps the pending phase. -/
theorem State.ctrlWrite_enabling (s : State) {v : Byte} (hv : ctrlEn v = true) :
    s.ctrlWrite v = { s with trace := s.trace ++ [.cw v], ctrl := ctrlAfterWrite s.ctrl v } := by
  simp [State.ctrlWrite, hv]

/-- After a write with EN = 1 the bit INT is kept unless it is written 1, and the writable bits are the written
ones. -/
theorem ctrlAfterWrite_bit (c : Byte) {v : Byte} (hv : ctrlEn v = true) (n : Nat) :
    (ctrlAfterWrite c v).getLsbD n =
      (v.getLsbD n && (0x74#8).getLsbD n || !v.getLsbD 7 && (c.getLsbD n && (0x80#8).getLsbD n)) := by
  unfold ctrlAfterWrite ctrlWritableBits ctrlInt
  cases v.getLsbD 7 <;> simp [hv]

/-! ### Moves that launch nothing, and moves that launch one phase (20_memory.md R59) -/

/-- The move launches no phase: none newly pends, and the trace grows by other events. -/
structure State.NoLaunch (s t : State) : Prop where
  pend : t.pend = s.pend ∨ t.pend = none
  trace : ∃ events, t.trace = s.trace ++ events ∧ ∀ p, Event.ph p ∉ events

/-- The move launches `p` last, right after a CTRL write with INT = 1 and EN = 1, with no phase pending before. -/
structure State.LaunchesOne (s t : State) (p : Phase) : Prop where
  before : s.pend = none
  after : t.pend = some p
  trace : ∃ events v, t.trace = s.trace ++ (events ++ [.cw v, .ph p]) ∧ (∀ q, Event.ph q ∉ events) ∧
    (ctrlInt v && ctrlEn v) = true

/-- The trace grows by events in order; what is launched in them was not preceded by a pending phase, pends after
them, and may be launched by this move; what newly pends is launched in them (20_memory.md R59). -/
def State.LaunchRule (mayLaunch : Phase → Prop) (s t : State) : Prop :=
  ∃ events, t.trace = s.trace ++ events ∧ launchesFollowWrites false events = true ∧
    (∀ p, Event.ph p ∈ events → s.pend = none ∧ t.pend = some p ∧ mayLaunch p) ∧
    (∀ p, s.pend ≠ some p → t.pend = some p → s.pend = none ∧ Event.ph p ∈ events)

/-- Events that launch nothing put no condition on the order. -/
theorem launchesFollowWrites_skip {events : List Event} (h : ∀ p, Event.ph p ∉ events) (rest : List Event) :
    ∀ ready, ∃ ready', launchesFollowWrites ready (events ++ rest) = launchesFollowWrites ready' rest := by
  induction events with
  | nil => exact fun ready => ⟨ready, rfl⟩
  | cons e es ih =>
    intro ready
    have skip := ih fun p hp => h p (List.mem_cons_of_mem _ hp)
    cases e with
    | ph p => exact absurd List.mem_cons_self (h p)
    | cw v => exact skip (ctrlInt v && ctrlEn v)
    | _ => exact skip false

theorem State.NoLaunch.launchRule (h : s.NoLaunch t) (mayLaunch : Phase → Prop) :
    State.LaunchRule mayLaunch s t := by
  obtain ⟨events, htrace, hnone⟩ := h.trace
  refine ⟨events, htrace, ?_, fun p hp => absurd hp (hnone p), fun p hs ht => ?_⟩
  · obtain ⟨ready, e⟩ := launchesFollowWrites_skip hnone [] false
    rwa [List.append_nil] at e
  · rcases h.pend with e | e <;> rw [e] at ht
    · exact absurd ht hs
    · cases ht

theorem State.LaunchesOne.launchRule (h : s.LaunchesOne t p) {mayLaunch : Phase → Prop} (hp : mayLaunch p) :
    State.LaunchRule mayLaunch s t := by
  obtain ⟨events, v, htrace, hnone, hv⟩ := h.trace
  refine ⟨_, htrace, ?_, fun q hq => ?_, fun q _ ht => ⟨h.before, ?_⟩⟩
  · obtain ⟨ready, e⟩ := launchesFollowWrites_skip hnone [.cw v, .ph p] false
    simp [e, launchesFollowWrites, hv]
  · have : q = p := by simpa [hnone] using hq
    exact this ▸ ⟨h.before, h.after, hp⟩
  · have : p = q := Option.some.inj (h.after.symm.trans ht)
    simp [this]

theorem State.NoLaunch.trans (h : s.NoLaunch t) (k : t.NoLaunch u) : s.NoLaunch u := by
  obtain ⟨l, hl, hln⟩ := h.trace
  obtain ⟨m, hm, hmn⟩ := k.trace
  refine ⟨?_, l ++ m, by rw [hm, hl, List.append_assoc], fun p hp => ?_⟩
  · rcases k.pend with e | e
    · exact e ▸ h.pend
    · exact .inr e
  · exact (List.mem_append.mp hp).elim (hln p) (hmn p)

theorem State.SameBlock.noLaunch (h : s.SameBlock t) : s.NoLaunch t :=
  ⟨.inl h.pend, [], by rw [h.trace, List.append_nil], fun _ => List.not_mem_nil⟩

theorem State.noLaunch_setArg (s : State) (v : Byte) : s.NoLaunch (s.setArg v) :=
  ⟨.inl rfl, [], by simp⟩

theorem State.noLaunch_raiseFault (s : State) (f : FaultReason) : s.NoLaunch (s.raiseFault f) :=
  ⟨.inl rfl, [], by simp⟩

theorem State.noLaunch_accept (s : State) (op : Byte) (c : Instr) : s.NoLaunch (s.accept op c) :=
  ⟨.inl rfl, [.issue op s.arg], by simp⟩

theorem State.noLaunch_completePhase (s : State) (p : Phase) (o : PhaseOutcome) :
    s.NoLaunch (s.completePhase p o) :=
  ⟨.inr rfl, _, s.completePhase_trace p o, by simp⟩

theorem State.noLaunch_resetAct (s : State) : s.NoLaunch s.resetAct :=
  ⟨.inr rfl, [.rst], by simp⟩

/-! ### The turns of the agents other than the engine -/

theorem State.noLaunch_hostWrite (s : State) (r : Reg) (v : Byte) : s.NoLaunch (s.hostWrite r v) := by
  rcases s.hostWrite_cases r v with ⟨-, e⟩ | ⟨c, -, -, e⟩ | ⟨f, e⟩ <;> rw [e]
  · exact s.noLaunch_setArg v
  · exact s.noLaunch_accept v c
  · exact s.noLaunch_raiseFault f

theorem State.noLaunch_completeWith (s : State) (o : PhaseOutcome) : s.NoLaunch (s.completeWith o) := by
  unfold State.completeWith
  split
  · exact (State.SameBlock.refl s).noLaunch
  · split
    · exact s.noLaunch_completePhase _ o
    · exact (State.SameBlock.refl s).noLaunch

theorem State.noLaunch_environmentStep (s : State) : s.NoLaunch s.environmentStep := by
  unfold State.environmentStep
  split
  · exact s.sameBlock_nextTick.noLaunch
  · split
    · exact s.sameBlock_nextTick.noLaunch
    · exact ((s.sameBlock_setEnv _).trans (State.sameBlock_nextTick _)).noLaunch.trans
        (State.noLaunch_completeWith _ _)

theorem State.noLaunch_hostFetch (s : State) : s.NoLaunch s.hostFetch := by
  unfold State.hostFetch
  split
  · exact (s.sameBlock_hostGoto _).noLaunch
  · exact ((s.sameBlock_noteRead _).trans (State.sameBlock_hostAdvance _ _)).noLaunch
  · exact (s.noLaunch_hostWrite .arg _).trans (State.sameBlock_hostGoto _ _).noLaunch

theorem State.sameBlock_hostPoll (s : State) : s.SameBlock s.hostPoll := by
  unfold State.hostPoll
  split
  · exact .refl s
  · exact s.sameBlock_hostGoto _

theorem State.sameBlock_hostResult (s : State) : s.SameBlock s.hostResult := by
  unfold State.hostResult
  split
  · exact s.sameBlock_hostAdvance _
  · exact s.sameBlock_hostGoto _

theorem State.noLaunch_programStep (s : State) : s.NoLaunch s.programStep := by
  unfold State.programStep
  split
  · exact (State.SameBlock.refl s).noLaunch
  · exact s.noLaunch_hostFetch
  · exact (s.noLaunch_hostWrite .cmd _).trans (State.sameBlock_hostGoto _ _).noLaunch
  · exact s.sameBlock_hostPoll.noLaunch
  · exact s.sameBlock_hostResult.noLaunch
  · exact (State.SameBlock.refl s).noLaunch

theorem State.noLaunch_hostAccess (s : State) (a : Access) : s.NoLaunch (s.hostAccess a) := by
  rcases s.hostAccess_cases a with e | ⟨r, e⟩ | ⟨r, v, e⟩ | e <;> rw [e]
  · exact (State.SameBlock.refl s).noLaunch
  · exact (s.sameBlock_noteRead _).noLaunch
  · exact s.noLaunch_hostWrite r v
  · exact s.noLaunch_raiseFault .hostAccess

/-- A turn of any agent but the engine launches nothing (20_memory.md R59). -/
theorem takeTurn_noLaunch {k : Turn} (hk : k ≠ .engine) (h : s.takeTurn k = .next t) : s.NoLaunch t := by
  unfold State.takeTurn at h
  split at h
  · cases h
  · cases k with
    | engine => exact absurd rfl hk
    | complete o => cases h; exact s.noLaunch_completeWith o
    | environment => cases h; exact s.noLaunch_environmentStep
    | program => cases h; exact s.noLaunch_programStep
    | access a => cases h; exact s.noLaunch_hostAccess a
    | run lines => cases h; exact (s.sameBlock_setHost _).noLaunch
    | reset => cases h; exact s.noLaunch_resetAct

/-! ### The engine's launches -/

/-- Nothing pends when a command in flight runs its first statement (10_state.md R30). -/
theorem State.Inv.pend_of_first (k : s.Inv) (hi : s.eng.command = some i) (h : s.stage = .first) :
    s.pend = none := by
  simpa [State.eng_of_first hi h, engPendOk] using k.engPend

/-- The stop micro-sequence launches its STOP phase (41_bus_conditions.md R121). -/
theorem State.stopSeqLaunch_launches (hp : s.pend = none) (saved : Option Byte) :
    s.LaunchesOne (s.stopSeqLaunch i saved) .stop :=
  ⟨hp, rfl, [], 0x94, by simp, by simp, by decide⟩

/-- A send launches its phase after it has written DATA and CTRL (42_data_phase.md R140, R141). -/
theorem State.sendLaunch_launches (hp : s.pend = none) (b : Byte) : s.LaunchesOne (s.sendLaunch b p i) p :=
  ⟨hp, rfl, [.dw b], 0x84, by simp, by simp, by decide⟩

/-- An engine move launches nothing, or the command's own phase or a STOP phase. -/
theorem EngineMove.launches (m : EngineMove s i t) (k : s.Inv) (hi : s.eng.command = some i) :
    s.NoLaunch t ∨ ∃ p, s.LaunchesOne t p ∧ (mainPhase i = some p ∨ p = .stop) := by
  cases m with
  | launchStart h =>
    have hp := k.pend_of_first hi h
    exact .inr ⟨.start, ⟨hp, rfl, [], ctrlStart, by simp, by simp, by decide⟩, .inl rfl⟩
  | launchReceive b h =>
    have hp := k.pend_of_first hi h
    have hv : ∀ b, (ctrlInt (ctrlReceive b) && ctrlEn (ctrlReceive b)) = true := by decide
    exact .inr ⟨.rx b, ⟨hp, rfl, [], ctrlReceive b, by simp, by simp, hv b⟩, .inl rfl⟩
  | launchStop h => exact .inr ⟨.stop, State.stopSeqLaunch_launches (k.pend_of_first hi h) none, .inr rfl⟩
  | launchAddress a d h => exact .inr ⟨_, State.sendLaunch_launches (k.pend_of_first hi h) _, .inl rfl⟩
  | launchByte d h => exact .inr ⟨_, State.sendLaunch_launches (k.pend_of_first hi h) d, .inl rfl⟩
  | nack i st h hv =>
    obtain ⟨-, hp, -⟩ := State.eng_of_mainDone hi h
    exact .inr ⟨.stop, State.stopSeqLaunch_launches hp (some st), .inr rfl⟩
  | held i h => exact .inl (State.SameBlock.refl s).noLaunch
  | beginCmd h => exact .inl ⟨.inl rfl, [.cw ctrlBegin, .res 0x00], by simp⟩
  | endCmd h => exact .inl ⟨.inr rfl, [.cw ctrlOff, .res 0x00], by simp⟩
  | setLowSpeed h | setHighSpeed h | startDone st h hv | dataDone i st hd h hv | stopDone st h hv
  | nackDone i saved st h hv => exact .inl ⟨.inl rfl, [.res _], by simp; rfl, by simp⟩
  | failed i st hm h hv | stopFailed st h hv | nackFailed i saved st h hv =>
    exact .inl ⟨.inr rfl, [.cw 0x00, .cw 0x44, .res _], by simp; rfl, by simp⟩

/-- The launches of one engine step (20_memory.md R59). -/
theorem exec_launchRule (k : s.Inv) (hi : s.eng.command = some i) (h : exec i s = .next t) :
    State.LaunchRule (fun p => mainPhase i = some p ∨ p = .stop) s t := by
  rcases (exec_move h).launches k hi with hn | ⟨p, hl, hp⟩
  · exact hn.launchRule _
  · exact hl.launchRule hp

/-- What is launched from a state is launched from every state with the same block. -/
theorem State.LaunchesOne.congr (h : s.SameBlock u) (k : u.LaunchesOne t p) : s.LaunchesOne t p :=
  ⟨h.pend ▸ k.before, k.after, h.trace ▸ k.trace⟩

/-- The launches of one step: the engine's, of the command in flight (20_memory.md R59). -/
theorem step_launchRule (k : s.Inv) (h : step s = .next t) :
    State.LaunchRule (fun p => ∃ i, s.eng.command = some i ∧ (mainPhase i = some p ∨ p = .stop)) s t := by
  cases step_move h with
  | outside hs => exact hs.noLaunch.launchRule _
  | reset u hs ht => exact ht ▸ (hs.noLaunch.trans u.noLaunch_resetAct).launchRule _
  | completion u p o hs hp ha ht => exact ht ▸ (hs.noLaunch.trans (u.noLaunch_completePhase p o)).launchRule _
  | argWrite v hs => exact ((s.noLaunch_setArg v).trans hs.noLaunch).launchRule _
  | accepted op c hc hs => exact ((s.noLaunch_accept op c).trans hs.noLaunch).launchRule _
  | faulted f hs => exact ((s.noLaunch_raiseFault f).trans hs.noLaunch).launchRule _
  | engine u i hs hi he =>
    rcases (exec_move he).launches (k.congr hs) hi with hn | ⟨p, hl, hp⟩
    · exact (hs.noLaunch.trans hn).launchRule _
    · exact (hl.congr hs).launchRule ⟨i, hs.eng ▸ hi, hp⟩

/-! ### The always-acknowledging environment (20_memory.md R64) -/

theorem statusOfCode_codeOfStatus {st : Byte} (h : st &&& 0x07 = 0) : statusOfCode (codeOfStatus st) = st := by
  have whole : ∀ x : Byte, x &&& 0x07 = 0 → statusOfCode (codeOfStatus x) = x := by decide
  exact whole st h

theorem ackStatus_low (p : Phase) (txnOpen : Bool) : ackStatus p txnOpen &&& 0x07 = 0 := by
  cases p with
  | start | addr b | rx k =>
    dsimp only [ackStatus]
    split <;> decide
  | stop | tx b => simp [ackStatus]

/-- What ACK_ENV answers is in the phase's protocol set (20_memory.md R63, R64). -/
theorem ackStatus_mem_protocolStatuses (p : Phase) (txnOpen : Bool) :
    ackStatus p txnOpen ∈ protocolStatuses p := by
  cases p with
  | start => cases txnOpen <;> decide
  | stop | tx b => simp [ackStatus, protocolStatuses]
  | addr b | rx k =>
    unfold ackStatus protocolStatuses
    dsimp only
    split <;> simp

theorem ackOutcome_code (p : Phase) (txnOpen : Bool) (rx : List Byte) (tick : Nat) :
    (ackOutcome p txnOpen rx tick).1.code = codeOfStatus (ackStatus p txnOpen) := by
  unfold ackOutcome
  split <;> rfl

/-- ACK_ENV's outcome is one the environment may give, under either draw. -/
theorem ackOutcome_allowed (d : StatusDraw) (p : Phase) (txnOpen : Bool) (rx : List Byte) (tick : Nat) :
    drawAllows d p (ackOutcome p txnOpen rx tick).1.code = true := by
  cases d with
  | any => rfl
  | protocol =>
    simp [drawAllows, ackOutcome_code, statusOfCode_codeOfStatus (ackStatus_low p txnOpen),
      ackStatus_mem_protocolStatuses]

/-- ACK_ENV completes the pending phase in its step. -/
theorem State.environmentStep_ack {rx : List Byte} (he : s.env = .ack rx) (hp : s.pend = some p) :
    s.environmentStep = ((s.setEnv (ackOutcome p s.txnOpen rx s.tick).2).nextTick).completePhase p
      (ackOutcome p s.txnOpen rx s.tick).1 := by
  simp [State.environmentStep, State.policyOutcome, State.completeWith, he, hp, ackOutcome_allowed]

/-- The status that ACK_ENV's completion leaves is that of its table. -/
theorem State.environmentStep_ack_maskedStatus {rx : List Byte} (he : s.env = .ack rx) (hp : s.pend = some p) :
    s.environmentStep.maskedStatus = ackStatus p s.txnOpen := by
  simp [State.environmentStep_ack he hp, State.maskedStatus, ackOutcome_code,
    statusOfCode_codeOfStatus (ackStatus_low p s.txnOpen)]

end Sys2Proof.Machine
end

section
/-! The statements about the host window, the engine's writes and the environment (20_memory.md). -/

namespace Sys2Proof.Machine

/-- Settles O11: the offset names a register, whose byte read is only noted; the reserved bits are 0 by the
invariant. -/
theorem hostReadsHaveNoSideEffect : Obligations.HostReadsHaveNoSideEffect := by
  refine ⟨fun s rest off v hq h hv => ?_, fun s k => ⟨k.ctrlReserved, k.statusReserved, s.engstat_reserved⟩⟩
  obtain ⟨r, rfl, rfl⟩ := s.hostRead_of_offset hv
  rw [step_liveTurn hq h]
  refine (congrArg Host.Outcome.next ((s.setTurns rest).hostAccess_read r)).trans ?_
  cases r <;> rfl

/-- Settles O20: the two kinds of CTRL write, and the bits of the second. -/
theorem ctrlAndDataWriteRule : Obligations.CtrlAndDataWriteRule := by
  refine ⟨fun s v hv => s.ctrlWrite_disabling hv, fun s v hv => ⟨_, s.ctrlWrite_enabling hv, ?_⟩, fun s b => rfl⟩
  simp only [ctrlAfterWrite_bit s.ctrl hv]
  simp [hv]

/-- Settles O21: the engine is the only agent that launches, and each of its moves launches at most one phase, last
and right after the enabling write. -/
theorem launchesFollowAnEnablingWrite : Obligations.LaunchesFollowAnEnablingWrite := by
  refine ⟨fun s p => rfl, fun i s t k hi h => ?_, fun s t k h => step_launchRule k h, fun s t n hn h => ?_⟩
  · obtain ⟨events, htrace, horder, hlaunched, -⟩ := exec_launchRule k hi h
    exact ⟨events, htrace, horder, hlaunched⟩
  · have hno := takeTurn_noLaunch hn h
    exact ⟨hno.pend, hno.trace⟩

/-- Settles O24: ACK_ENV's outcome is always allowed, so its step completes the phase with the status of its table. -/
theorem ackEnvironmentAnswersItsTable : Obligations.AckEnvironmentAnswersItsTable := by
  intro s p rx rest he hp hq h
  have hc := State.environmentStep_ack (s := s.setTurns rest) he hp
  have hst := State.environmentStep_ack_maskedStatus (s := s.setTurns rest) he hp
  refine ⟨(s.setTurns rest).environmentStep, by rw [step_liveTurn hq h]; rfl, by rw [hc]; rfl, ?_⟩
  rw [hst]
  refine ⟨?_, ?_, ?_, ?_, ?_, ?_, ?_, ?_, ?_⟩
  · rintro rfl ho; simp [ackStatus, ho]
  · rintro rfl ho; simp [ackStatus, ho]
  · rintro b rfl hb; exact if_pos hb
  · rintro b rfl hb; simp [ackStatus, hb]
  · rintro b rfl; rfl
  · rintro rfl; rfl
  · rintro rfl; rfl
  · rintro rfl; rfl
  · rintro k b more rfl rfl
    rw [hc]
    exact ⟨rfl, rfl⟩

end Sys2Proof.Machine
end

section
/-! SUPPORT. The command word by its two bytes, the rows of the opcode map by their opcode and the ARG bits they
reserve, and what the decoder answers for each word (30_encoding.md R80 to R88). -/

namespace Sys2Proof

variable {w : CommandWord} {op arg : Byte} {r q : OpRow}

/-! ### The command word (30_encoding.md R80) -/

theorem commandWord_fields (w : CommandWord) : commandWord (w.extractLsb' 8 8) (w.extractLsb' 0 8) = w :=
  BitVec.extractLsb'_append_extractLsb'

@[simp] theorem commandWord_opField (op arg : Byte) : (commandWord op arg).extractLsb' 8 8 = op :=
  BitVec.extractLsb'_append_eq_left

@[simp] theorem commandWord_argField (op arg : Byte) : (commandWord op arg).extractLsb' 0 8 = arg :=
  BitVec.extractLsb'_append_eq_right

theorem commandWord_and (op arg m n : Byte) :
    commandWord op arg &&& commandWord m n = commandWord (op &&& m) (arg &&& n) :=
  BitVec.and_append

theorem commandWord_inj {p b : Byte} : commandWord op arg = commandWord p b ↔ op = p ∧ arg = b := by
  refine ⟨fun h => ⟨?_, ?_⟩, fun ⟨hop, harg⟩ => by rw [hop, harg]⟩
  · simpa using congrArg (·.extractLsb' 8 8) h
  · simpa using congrArg (·.extractLsb' 0 8) h

theorem byte_and_ones (x : Byte) : x &&& 0xFF = x := BitVec.and_allOnes

/-! ### The rows (30_encoding.md R82) -/

theorem OpRow.mem_all (r : OpRow) : r ∈ OpRow.all := by cases r <;> decide

/-- OP of a row: the high byte of its `match` column. -/
def OpRow.opcode (r : OpRow) : Byte :=
  r.pattern.extractLsb' 8 8

/-- The ARG bits a row reserves: the low byte of its `mask` column. -/
def OpRow.argMask (r : OpRow) : Byte :=
  r.mask.extractLsb' 0 8

theorem OpRow.pattern_eq (r : OpRow) : r.pattern = commandWord r.opcode 0x00 := by cases r <;> rfl

theorem OpRow.mask_eq (r : OpRow) : r.mask = commandWord 0xFF r.argMask := by cases r <;> rfl

/-- No two rows have the same OP. -/
theorem OpRow.opcode_injective : r.opcode = q.opcode → r = q := by
  have h : ∀ r ∈ OpRow.all, ∀ q ∈ OpRow.all, r.opcode = q.opcode → r = q := by decide
  exact h r r.mem_all q q.mem_all

/-- A word matches a row when its OP is the row's and the ARG bits the row reserves are zero. -/
theorem OpRow.match_iff (r : OpRow) (op arg : Byte) :
    commandWord op arg &&& r.mask = r.pattern ↔ op = r.opcode ∧ arg &&& r.argMask = 0x00 := by
  rw [r.pattern_eq, r.mask_eq, commandWord_and, commandWord_inj, byte_and_ones]

theorem OpRow.matchesWord_iff : r.matchesWord w = true ↔ w &&& r.mask = r.pattern := decide_eq_true_iff

theorem OpRow.opcode_of_match (h : w &&& r.mask = r.pattern) : w.extractLsb' 8 8 = r.opcode := by
  rw [← commandWord_fields w] at h
  exact ((r.match_iff _ _).mp h).1

/-- At most one row matches a word (30_encoding.md R88). -/
theorem OpRow.match_unique (hr : w &&& r.mask = r.pattern) (hq : w &&& q.mask = q.pattern) : r = q :=
  OpRow.opcode_injective ((OpRow.opcode_of_match hr).symm.trans (OpRow.opcode_of_match hq))

/-! ### The decoder (30_encoding.md R88) -/

theorem decode_of_match (h : w &&& r.mask = r.pattern) : decode w = .command (r.command w) := by
  have hfind : OpRow.all.find? (·.matchesWord w) = some r := by
    rcases hf : OpRow.all.find? (·.matchesWord w) with _ | q
    · exact absurd (OpRow.matchesWord_iff.mpr h) (List.find?_eq_none.mp hf r r.mem_all)
    · have hq : q.matchesWord w = true := List.find?_some (p := (OpRow.matchesWord · w)) hf
      rw [hf, OpRow.match_unique (OpRow.matchesWord_iff.mp hq) h]
  rw [decode, hfind]

theorem decode_of_no_match (h : ∀ r : OpRow, w &&& r.mask ≠ r.pattern) : decode w = .illegal (illegalReason w) := by
  have hfind : OpRow.all.find? (·.matchesWord w) = none :=
    List.find?_eq_none.mpr fun r _ hr => h r (OpRow.matchesWord_iff.mp hr)
  rw [decode, hfind]

theorem decode_illegal_iff :
    (∃ why, decode w = .illegal why) ↔ ∀ r : OpRow, w &&& r.mask ≠ r.pattern := by
  refine ⟨fun ⟨why, hw⟩ r hr => ?_, fun h => ⟨_, decode_of_no_match h⟩⟩
  rw [decode_of_match hr] at hw
  cases hw

/-! ### The illegal words (30_encoding.md R86) -/

/-- The OP values that are no row's. -/
theorem reservedOpcode_iff (op : Byte) :
    (op = 0x00 ∨ (0x05 ≤ op.toNat ∧ op.toNat ≤ 0x0F) ∨ 0x15 ≤ op.toNat) ↔ ∀ r : OpRow, op ≠ r.opcode := by
  have h : ∀ op : Byte, (op = 0x00 ∨ (0x05 ≤ op.toNat ∧ op.toNat ≤ 0x0F) ∨ 0x15 ≤ op.toNat) ↔
      ∀ r ∈ OpRow.all, op ≠ r.opcode := by decide
  exact (h op).trans ⟨fun k r => k r r.mem_all, fun k r _ => k r⟩

/-- A word with a row's OP is illegal when an ARG bit the row reserves is set. -/
theorem decode_illegal_of_opcode (r : OpRow) (arg : Byte) :
    (∃ why, decode (commandWord r.opcode arg) = .illegal why) ↔ arg &&& r.argMask ≠ 0x00 := by
  rw [decode_illegal_iff]
  refine ⟨fun h harg => h r ((r.match_iff _ _).mpr ⟨rfl, harg⟩), fun harg q hq => ?_⟩
  obtain ⟨hop, hq⟩ := (q.match_iff _ _).mp hq
  exact harg (OpRow.opcode_injective hop ▸ hq)

/-- Where the OP is no row's, the word is illegal. -/
theorem decode_illegal_of_reserved (h : ∀ r : OpRow, op ≠ r.opcode) (arg : Byte) :
    ∃ why, decode (commandWord op arg) = .illegal why :=
  decode_illegal_iff.mpr fun r hr => h r ((r.match_iff op arg).mp hr).1

/-- The ARG bits that RECEIVE_BYTE reserves are ARG[7:1] (30_encoding.md R84). -/
theorem and_ackMask_eq_zero : ∀ arg : Byte, arg &&& 0xFE = 0x00 ↔ arg.extractLsb' 1 7 = 0 := by decide

/-- A reserved ARG bit is set: any bit for a row of format N, one of ARG[7:1] for RECEIVE_BYTE, and never for the other
two rows (30_encoding.md R81). -/
theorem OpRow.reservedArg_iff (r : OpRow) (arg : Byte) :
    arg &&& r.argMask ≠ 0x00 ↔
      ((r.opcode = 0x01 ∨ r.opcode = 0x02 ∨ r.opcode = 0x03 ∨ r.opcode = 0x04 ∨ r.opcode = 0x10 ∨ r.opcode = 0x11) ∧
          arg ≠ 0x00) ∨
        (r.opcode = 0x14 ∧ arg.extractLsb' 1 7 ≠ 0) := by
  cases r with
  | sendAddressRow | sendByteRow => simp [OpRow.opcode, OpRow.argMask, OpRow.pattern, OpRow.mask]
  | receiveByteRow =>
    simpa [OpRow.opcode, OpRow.argMask, OpRow.pattern, OpRow.mask] using (and_ackMask_eq_zero arg).not
  | beginRow | endRow | setLowSpeedRow | setHighSpeedRow | startRow | stopRow =>
    have hones : arg &&& 0xFF#8 = arg := byte_and_ones arg
    simp [OpRow.opcode, OpRow.argMask, OpRow.pattern, OpRow.mask, hones]

/-! ### The SLA byte (30_encoding.md R83) -/

theorem sendAddress_argByte (a : BitVec 7) (d : BitVec 1) : (Instr.sendAddress a d).argByte = Machine.slaByte a d := by
  have h : (a ++ d).setWidth 8 = a.setWidth 8 <<< 1 ||| d.setWidth 8 :=
    BitVec.setWidth_append_eq_shiftLeft_setWidth_or
  exact h.symm.trans (BitVec.setWidth_eq _)

theorem slaByte_toNat (a : BitVec 7) (d : BitVec 1) : (Machine.slaByte a d).toNat = 2 * a.toNat + d.toNat := by
  rw [Machine.slaByte, BitVec.toNat_append, ← Nat.shiftLeft_add_eq_or_of_lt d.isLt, Nat.shiftLeft_eq, Nat.mul_comm]

end Sys2Proof

namespace Sys2Proof.Machine

/-- An illegal word that is issued while no command is in flight is refused as ILLEGAL (60_exceptions.md R210). -/
theorem issueCheck_illegal {s : State} {op : Byte} {why : IllegalWord} (hi : s.eng = .idle)
    (hd : decode (commandWord op s.arg) = .illegal why) : issueCheck s op = .reject .illegal := by
  simp [issueCheck, State.busy, hi, hd]

end Sys2Proof.Machine
end

section
/-! The statements about the encoding (30_encoding.md). -/

namespace Sys2Proof.Machine

/-- Settles O4: the rows have distinct opcodes, so the first matching row is the only one. -/
theorem decodeFollowsTheOneMatchingRow : Obligations.DecodeFollowsTheOneMatchingRow :=
  ⟨fun _ _ => decode_of_match, fun _ h => ⟨_, decode_of_no_match h⟩, fun _ _ _ => OpRow.match_unique⟩

/-- Settles O5: a reserved OP matches no row, and with a row's OP the reserved ARG bits decide; the issue checks then
find ILLEGAL. -/
theorem illegalWordsFaultAtIssue : Obligations.IllegalWordsFaultAtIssue := by
  refine ⟨fun op arg => ?_, fun s op why hi hd => ?_⟩
  · by_cases hop : ∀ r : OpRow, op ≠ r.opcode
    · exact iff_of_true (decode_illegal_of_reserved hop arg) (.inl ((reservedOpcode_iff op).mpr hop))
    · rw [reservedOpcode_iff, or_iff_right hop]
      push Not at hop
      obtain ⟨r, rfl⟩ := hop
      exact (decode_illegal_of_opcode r arg).trans (r.reservedArg_iff arg)
  · rw [State.issue, issueCheck_illegal hi hd]
    rfl

/-- Settles O6: the operand is the SLA byte that the phase carries, `a` above `d`. -/
theorem sendAddressOperandIsTheSlaByte : Obligations.SendAddressOperandIsTheSlaByte := by
  intro a d
  refine ⟨rfl, ?_⟩
  rw [sendAddress_argByte]
  exact ⟨slaByte_toNat a d, BitVec.extractLsb'_append_eq_left, BitVec.extractLsb'_append_eq_right, rfl⟩

end Sys2Proof.Machine
end

section
/-! SUPPORT. The issue checks of a decoded command, the engine step of the configuration commands, the bit-rate
constants, and what a bus command does not see of BITRATE and PS (40_config.md). -/

namespace Sys2Proof

/-! ### The bit-rate constants (40_config.md R100) -/

theorem clockLegal_iff (cpuHz : Nat) :
    clockLegal cpuHz = true ↔
      16 ≤ cpuHz / lowSpeedHz ∧ bitRate cpuHz lowSpeedHz ≤ 255 ∧
        16 ≤ cpuHz / highSpeedHz ∧ bitRate cpuHz highSpeedHz ≤ 255 := by
  simp [clockLegal, presetLegal, and_assoc]

/-- There is a legal configuration for just the clocks that pass the check (00_scope.md R8). -/
theorem LegalClock.exists_hz_iff (hz : Nat) : (∃ c : LegalClock, c.hz = hz) ↔ clockLegal hz = true :=
  ⟨fun ⟨c, h⟩ => h ▸ c.legal, fun h => ⟨⟨hz, h⟩, rfl⟩⟩

/-- Each preset of a legal clock has a legal value. -/
theorem LegalClock.preset (c : LegalClock) (v : Speed) : 16 ≤ c.hz / v.hz ∧ bitRate c.hz v.hz ≤ 255 := by
  obtain ⟨hlow, hlow', hhigh, hhigh'⟩ := (clockLegal_iff c.hz).mp c.legal
  cases v
  · exact ⟨hlow, hlow'⟩
  · exact ⟨hhigh, hhigh'⟩

/-- The constant of a legal clock loses no bit in the byte BITRATE takes. -/
theorem Params.bitRateOf_toNat (p : Params) (v : Speed) : (p.bitRateOf v).toNat = bitRate p.clock.hz v.hz := by
  have hle := (p.clock.preset v).2
  rw [Params.bitRateOf, BitVec.toNat_ofNat, Nat.mod_eq_of_lt (by omega)]

end Sys2Proof

namespace Sys2Proof.Machine

variable {s t : State} {op : Byte} {c : Instr} {v : Speed}

/-! ### The issue checks of a decoded command (60_exceptions.md R210) -/

/-- With a word that is a command, ILLEGAL is not among the answers. -/
theorem issueCheck_command (hd : decode (commandWord op s.arg) = .command c) :
    issueCheck s op =
      if s.busy then .reject .busy
      else if c ≠ .beginCmd ∧ s.enabled = false then .reject .disabled
      else if isReconfiguration c = true ∧ s.txnOpen = true then .reject .midTxn
      else if isDataPhase c = true ∧ s.txnOpen = false then .reject .noTxn
      else .accept c := by
  simp only [issueCheck, hd]

/-- While the block is idle and disabled, a command but BEGIN is refused as DISABLED. -/
theorem issueCheck_disabled (hi : s.eng = .idle) (he : s.enabled = false)
    (hd : decode (commandWord op s.arg) = .command c) (hc : c ≠ .beginCmd) :
    issueCheck s op = .reject .disabled := by
  simp [issueCheck_command hd, State.busy, hi, he, hc]

/-! ### The engine step of a configuration command (40_config.md) -/

theorem State.configStep_first (h : s.stage = .first) (done : State) : s.configStep done = .next done := by
  rw [State.configStep, h]

/-- The command that selects a preset: SET_LOW_SPEED or SET_HIGH_SPEED (40_config.md R103, R104). -/
def speedCommand : Speed → Instr
  | .low => .setLowSpeed
  | .high => .setHighSpeed

/-- The state after the speed command of `v`. -/
def State.speedSet (s : State) (v : Speed) : State :=
  ((s.setSpeed v).setBitrate v).finish 0x00

theorem exec_speedCommand (h : s.stage = .first) (v : Speed) : exec (speedCommand v) s = .next (s.speedSet v) := by
  cases v
  · exact State.configStep_first h _
  · exact State.configStep_first h _

theorem decode_speedCommand (v : Speed) :
    decode (commandWord (speedCommand v).op 0x00) = .command (speedCommand v) := by
  cases v <;> rfl

/-- The speed commands need an enabled block and no open transaction. -/
theorem issueCheck_speedCommand (harg : s.arg = 0x00) (v : Speed) :
    issueCheck s (speedCommand v).op =
      if s.busy then .reject .busy
      else if s.enabled then (if s.txnOpen then .reject .midTxn else .accept (speedCommand v))
      else .reject .disabled := by
  rw [issueCheck_command (harg ▸ decode_speedCommand v)]
  cases v <;> cases s.enabled <;> simp [speedCommand, isReconfiguration, isDataPhase]

/-! ### A command issued through CMD, and its engine turn (20_memory.md R52) -/

/-- In a live state, a byte write of CMD whose checks pass accepts the command. -/
theorem step_issue {rest : List Turn} (hq : s.quiescent = false)
    (h : s.turns = .access (.write (s.params.base + 5) 1 op) :: rest) (hc : issueCheck s op = .accept c) :
    step s = .next ((s.setTurns rest).accept op c) := by
  have hc' : issueCheck (s.setTurns rest) op = .accept c := hc
  have hissue : (s.setTurns rest).hostWrite .cmd op = (s.setTurns rest).accept op c := by
    simp only [State.hostWrite, State.issue, hc']
  rw [step_liveTurn hq h, ← hissue]
  exact congrArg Host.Outcome.next ((s.setTurns rest).hostAccess_write .cmd op)

/-- In a live state, the engine's turn is an engine step of the command in flight. -/
theorem step_engine {rest : List Turn} (hq : s.quiescent = false) (h : s.turns = .engine :: rest)
    (hc : s.eng.command = some c) : step s = exec c (s.setTurns rest) := by
  have hc' : (s.setTurns rest).eng.command = some c := hc
  rw [step_liveTurn hq h, State.agentTurn, State.engineTurn, hc']

/-- In a live state, a write of CMD whose checks pass and the engine's turn after it run the command that was issued. -/
theorem run_issued {rest : List Turn} (hq : s.quiescent = false)
    (h : s.turns = .access (.write (s.params.base + 5) 1 op) :: .engine :: rest) (hc : issueCheck s op = .accept c)
    (ht : exec c (((s.setTurns (.engine :: rest)).accept op c).setTurns rest) = .next t) (k : Nat) :
    Sys2Proof.core.run (k + 2) s = Sys2Proof.core.run k t := by
  have hq' : ((s.setTurns (.engine :: rest)).accept op c).quiescent = false := hq
  rw [core_run_next (step_issue hq h hc), core_run_next ((step_engine hq' rfl rfl).trans ht)]

/-- The block accepts a speed command: it is idle, enabled and live, with ARG zero and no open transaction. -/
structure State.ReadyForSpeed (s : State) : Prop where
  idle : s.eng = .idle
  arg : s.arg = 0x00
  enabled : s.enabled = true
  closed : s.txnOpen = false
  live : s.quiescent = false

theorem State.ReadyForSpeed.issueCheck (hs : s.ReadyForSpeed) (v : Speed) :
    issueCheck s (speedCommand v).op = .accept (speedCommand v) := by
  simp [issueCheck_speedCommand hs.arg, State.busy, hs.idle, hs.enabled, hs.closed]

/-- A speed command that is issued and run sets its preset and leaves the block ready for the next one. -/
theorem run_speedCommand {rest : List Turn} (hs : s.ReadyForSpeed)
    (h : s.turns = .access (.write (s.params.base + 5) 1 (speedCommand v).op) :: .engine :: rest) (k : Nat) :
    ∃ t : State, Sys2Proof.core.run (k + 2) s = Sys2Proof.core.run k t ∧ t.ReadyForSpeed ∧ t.turns = rest ∧
      t.params = s.params ∧ t.speedSel = v ∧ t.bitrate = s.params.bitRateOf v ∧ t.result = 0x00 :=
  ⟨_, run_issued hs.live h (hs.issueCheck v) (exec_speedCommand rfl v) k,
    ⟨rfl, hs.arg, hs.enabled, hs.closed, hs.live⟩, rfl, rfl, rfl, rfl, rfl⟩

/-! ### What a bus command does not see -/

/-- `f` changes nothing that a bus command reads or writes: it keeps the engine's place and commutes with each of the
operations that START, STOP and the data-phase commands are written over. -/
structure BusFrame (f : State → State) : Prop where
  stage (s : State) : (f s).stage = s.stage
  ctrlWrite (s : State) (v : Byte) : (f s).ctrlWrite v = f (s.ctrlWrite v)
  dataWrite (s : State) (b : Byte) : (f s).dataWrite b = f (s.dataWrite b)
  launch (s : State) (p : Phase) : (f s).launch p = f (s.launch p)
  hold (s : State) (e : Eng) : (f s).hold e = f (s.hold e)
  setTxnOpen (s : State) (o : Bool) : (f s).setTxnOpen o = f (s.setTxnOpen o)
  finish (s : State) (r : Byte) : (f s).finish r = f (s.finish r)

section
variable {f : State → State} (hf : BusFrame f)
include hf

theorem BusFrame.recover (s : State) : (f s).recover = f s.recover := by
  simp only [State.recover, hf.ctrlWrite, hf.setTxnOpen]

theorem BusFrame.failExit (s : State) (st : Byte) : (f s).failExit st = f (s.failExit st) := by
  simp only [State.failExit, hf.recover, hf.finish]

theorem BusFrame.stopSeqLaunch (s : State) (c : Instr) (saved : Option Byte) :
    (f s).stopSeqLaunch c saved = f (s.stopSeqLaunch c saved) := by
  simp only [State.stopSeqLaunch, hf.ctrlWrite, hf.launch, hf.hold]

theorem BusFrame.stopSeqEnd (s : State) (st : Byte) : (f s).stopSeqEnd st = f (s.stopSeqEnd st) := by
  simp only [State.stopSeqEnd, hf.setTxnOpen, hf.recover]
  cases verdictStop st <;> rfl

theorem BusFrame.sendLaunch (s : State) (b : Byte) (p : Phase) (c : Instr) :
    (f s).sendLaunch b p c = f (s.sendLaunch b p c) := by
  simp only [State.sendLaunch, hf.dataWrite, hf.ctrlWrite, hf.launch, hf.hold]

theorem BusFrame.sendDone (s : State) (v : Verdict) (st : Byte) (c : Instr) :
    (f s).sendDone v st c = f (s.sendDone v st c) := by
  cases v with
  | success => exact hf.finish s 0x00
  | nack => exact hf.stopSeqLaunch s c (some st)
  | fail => exact hf.failExit s st

theorem BusFrame.nackDone (s : State) (saved st : Byte) : (f s).nackDone saved st = f (s.nackDone saved st) := by
  simp only [State.nackDone, hf.stopSeqEnd, hf.finish]

theorem BusFrame.execStart (s : State) : execStart (f s) = mapNext f (execStart s) := by
  simp only [Machine.execStart, hf.stage, hf.ctrlWrite, hf.launch, hf.hold, hf.setTxnOpen, hf.finish, hf.failExit]
  cases s.stage with
  | mainDone st =>
    dsimp only
    cases verdictStart st <;> rfl
  | _ => rfl

theorem BusFrame.execStop (s : State) : execStop (f s) = mapNext f (execStop s) := by
  simp only [Machine.execStop, hf.stage, hf.stopSeqLaunch, hf.stopSeqEnd, hf.finish]
  cases s.stage with
  | stopDone saved st =>
    cases saved with
    | none =>
      dsimp only
      cases verdictStop st <;> rfl
    | some _ => rfl
  | _ => rfl

theorem BusFrame.execSendAddress (s : State) (a : BitVec 7) (d : BitVec 1) :
    execSendAddress a d (f s) = mapNext f (execSendAddress a d s) := by
  simp only [Machine.execSendAddress, hf.stage, hf.sendLaunch, hf.sendDone, hf.nackDone]
  cases s.stage with
  | stopDone saved st => cases saved <;> rfl
  | _ => rfl

theorem BusFrame.execSendByte (s : State) (d : Byte) : execSendByte d (f s) = mapNext f (execSendByte d s) := by
  simp only [Machine.execSendByte, hf.stage, hf.sendLaunch, hf.sendDone, hf.nackDone]
  cases s.stage with
  | stopDone saved st => cases saved <;> rfl
  | _ => rfl

theorem BusFrame.execReceiveByte (s : State) (k : BitVec 1) :
    execReceiveByte k (f s) = mapNext f (execReceiveByte k s) := by
  simp only [Machine.execReceiveByte, hf.stage, hf.ctrlWrite, hf.launch, hf.hold, hf.finish, hf.failExit]
  cases s.stage with
  | mainDone st =>
    dsimp only
    cases verdictReceiveByte st <;> rfl
  | _ => rfl

end

/-! ### BITRATE and PS (40_config.md R105) -/

/-- The state with another BITRATE and another PS. -/
def State.setTiming (b : Byte) (ps : BitVec 2) (s : State) : State :=
  { s with bitrate := b, status := (s.status &&& 0xFC) ||| ps.setWidth 8 }

/-- PS is no part of the masked status. -/
theorem maskStatus_setPs (st : Byte) (ps : BitVec 2) :
    maskStatus ((st &&& 0xFC) ||| ps.setWidth 8) = maskStatus st := by
  have hps : ∀ p : BitVec 2, (p.setWidth 8 : Byte) &&& 0xF8 = 0 := by decide
  have hst : st &&& 0xFC &&& 0xF8 = st &&& 0xF8 := BitVec.and_assoc ..
  rw [maskStatus, byte_or_and, hps, hst]
  exact BitVec.or_zero

theorem State.setTiming_maskedStatus (b : Byte) (ps : BitVec 2) (s : State) :
    (s.setTiming b ps).maskedStatus = s.maskedStatus :=
  maskStatus_setPs s.status ps

theorem State.setTiming_stage (b : Byte) (ps : BitVec 2) (s : State) : (s.setTiming b ps).stage = s.stage := by
  simp only [State.stage, State.setTiming_maskedStatus]
  rfl

theorem busFrame_setTiming (b : Byte) (ps : BitVec 2) : BusFrame (State.setTiming b ps) where
  stage := State.setTiming_stage b ps
  ctrlWrite _ _ := rfl
  dataWrite _ _ := rfl
  launch _ _ := rfl
  hold _ _ := rfl
  setTxnOpen _ _ := rfl
  finish _ _ := rfl

/-- Two states agree on what must not depend on BITRATE and PS: the result and the trace, and the registers and
hidden state that later results come from. -/
def State.SameEffect (s t : State) : Prop :=
  s.result = t.result ∧ s.trace = t.trace ∧ s.eng = t.eng ∧ s.pend = t.pend ∧ s.ctrl = t.ctrl ∧ s.data = t.data ∧
    s.txnOpen = t.txnOpen

theorem State.setTiming_sameEffect (b : Byte) (ps : BitVec 2) (s : State) : (s.setTiming b ps).SameEffect s :=
  ⟨rfl, rfl, rfl, rfl, rfl, rfl, rfl⟩

/-- A configuration command takes its one step from the same states, whatever BITRATE and PS are. -/
theorem configStep_setTiming {done done' : State} (h : s.configStep done = .next t) (hd : done'.SameEffect done)
    (b : Byte) (ps : BitVec 2) :
    ∃ t', (s.setTiming b ps).configStep done' = .next t' ∧ t'.SameEffect t := by
  obtain ⟨hs, rfl⟩ := State.configStep_next h
  exact ⟨done', State.configStep_first ((s.setTiming_stage b ps).trans hs) done', hd⟩

/-- A next state with another BITRATE and PS has the same effect. -/
theorem mapNext_setTiming {o o' : Host.Outcome State Fault Refusal} {b : Byte} {ps : BitVec 2}
    (ho : o' = mapNext (State.setTiming b ps) o) (h : o = .next t) : ∃ t', o' = .next t' ∧ t'.SameEffect t := by
  subst h
  exact ⟨t.setTiming b ps, ho, t.setTiming_sameEffect b ps⟩

/-- An engine step has the same effect whatever BITRATE and PS are: the configuration commands do not read them, and the
bus commands commute with a change of them. -/
theorem exec_setTiming {i : Instr} (h : exec i s = .next t) (b : Byte) (ps : BitVec 2) :
    ∃ t', exec i (s.setTiming b ps) = .next t' ∧ t'.SameEffect t := by
  have hf := busFrame_setTiming b ps
  cases i with
  | beginCmd | endCmd | setLowSpeed | setHighSpeed =>
    refine configStep_setTiming h ?_ b ps
    exact ⟨rfl, rfl, rfl, rfl, rfl, rfl, rfl⟩
  | start => exact mapNext_setTiming (hf.execStart s) h
  | stop => exact mapNext_setTiming (hf.execStop s) h
  | sendAddress a d => exact mapNext_setTiming (hf.execSendAddress s a d) h
  | sendByte d => exact mapNext_setTiming (hf.execSendByte s d) h
  | receiveByte k => exact mapNext_setTiming (hf.execReceiveByte s k) h

theorem State.completePhase_maskedStatus (s : State) (p : Phase) (o : PhaseOutcome) :
    (s.completePhase p o).maskedStatus = statusOfCode o.code :=
  maskStatus_withCode s.status o.code

end Sys2Proof.Machine
end

section
/-! The statements about the configuration commands (40_config.md). -/

namespace Sys2Proof.Machine

/-- Settles O33: BEGIN passes the DISABLED check in every state, and its CTRL write leaves INT as it was. -/
theorem beginRule : Obligations.BeginRule := by
  refine ⟨rfl, fun s harg => ?_, fun s he => ?_⟩
  · have hd : decode (commandWord 0x01 s.arg) = .command .beginCmd := by rw [harg]; rfl
    rw [issueCheck_command hd]
    simp [isReconfiguration, isDataPhase]
  · refine (State.configStep_first (State.stage_issued he) _).trans ?_
    rw [State.ctrlWrite_enabling _ ctrlEn_begin, ctrlAfterWrite_begin]
    simp only [State.finish, List.append_assoc]
    rfl

/-- Settles O34: END leaves the block idle with CTRL.EN = 0, where the DISABLED check refuses every command but
BEGIN. -/
theorem endRule : Obligations.EndRule := by
  refine ⟨rfl, fun s harg => ?_, fun s he => ?_, fun s t op c he h hd hc => ?_⟩
  · have hd : decode (commandWord 0x02 s.arg) = .command .endCmd := by rw [harg]; rfl
    rw [issueCheck_command hd]
    cases s.enabled <;> simp [isReconfiguration, isDataPhase]
  · refine (State.configStep_first (State.stage_issued he) _).trans ?_
    rw [State.ctrlWrite_disabling _ ctrlEn_off]
    simp only [State.finish, State.setTxnOpen, List.append_assoc]
    rfl
  · obtain ⟨-, rfl⟩ := State.configStep_next h
    exact issueCheck_disabled rfl (ctrlEn_afterWrite s.ctrl ctrlOff) hd hc

/-- Settles O35: each speed command of the round trip finds the block ready and sets BITRATE from its own preset. -/
theorem setLowSpeedRule : Obligations.SetLowSpeedRule := by
  refine ⟨rfl, fun s harg => issueCheck_speedCommand harg .low,
    fun s he => exec_speedCommand (State.stage_issued he) .low, fun s rest hi harg he ho hq h => ?_⟩
  obtain ⟨t₁, r₁, k₁, u₁, p₁, -⟩ := run_speedCommand (v := .low) ⟨hi, harg, he, ho, hq⟩ h 4
  rw [← p₁] at u₁
  obtain ⟨t₂, r₂, k₂, u₂, p₂, -⟩ := run_speedCommand (v := .high) k₁ u₁ 2
  rw [← p₂] at u₂
  obtain ⟨t₃, r₃, k₃, -, -, hv, hb, hr⟩ := run_speedCommand (v := .low) k₂ u₂ 0
  refine ⟨t₃, (r₁.trans r₂).trans r₃, ?_, hv, hr, k₃.idle⟩
  rw [hb, p₂, p₁]

/-- Settles O36: SET_HIGH_SPEED is the speed command of the high preset. -/
theorem setHighSpeedRule : Obligations.SetHighSpeedRule :=
  ⟨rfl, fun _ harg => issueCheck_speedCommand harg .high,
    fun _ he => exec_speedCommand (State.stage_issued he) .high⟩

/-- Settles O37: a clock is legal when both presets are, and a legal preset's value fits the byte. -/
theorem bitRateConstants : Obligations.BitRateConstants := by
  refine ⟨fun c base d => ?_, fun hz => (LegalClock.exists_hz_iff hz).trans (clockLegal_iff hz), rfl, rfl, rfl⟩
  exact ⟨(Params.mk c base d).bitRateOf_toNat .low, (c.preset .low).1,
    (Params.mk c base d).bitRateOf_toNat .high, (c.preset .high).1⟩

/-- Settles O38: an engine step does the same with another BITRATE and PS, and a completed phase's masked status is the
environment's code. -/
theorem bitrateAndPrescalerDoNotMatter : Obligations.BitrateAndPrescalerDoNotMatter := by
  refine ⟨fun i s t b ps h => exec_setTiming h b ps, fun s p o b ps => ?_⟩
  refine ⟨s.setTiming b ps, rfl, s.setTiming_maskedStatus b ps, ?_, rfl⟩
  rw [State.completePhase_maskedStatus, State.completePhase_maskedStatus]

end Sys2Proof.Machine
end

section
/-! SUPPORT. The verdicts, exits and launches of the bus conditions as whole next states, and the engine step of START
and STOP from each place of the engine (41_bus_conditions.md). -/

namespace Sys2Proof.Machine

variable {s : State} {op st : Byte} {c i : Instr}

/-! ### Verdicts (60_exceptions.md R200) -/

theorem verdictStart_success (h : st = 0x08 ∨ st = 0x10) : verdictStart st = .success := if_pos h

theorem verdictStart_fail (h8 : st ≠ 0x08) (h10 : st ≠ 0x10) : verdictStart st = .fail :=
  if_neg (not_or.mpr ⟨h8, h10⟩)

theorem verdictStop_success (h : st = 0xF8) : verdictStop st = .success := if_pos h

theorem verdictStop_fail (h : st ≠ 0xF8) : verdictStop st = .fail := if_neg h

/-! ### Recovery, failure exit and launch as whole next states -/

/-- A recovery clears CTRL, re-enables it and closes the transaction (60_exceptions.md R204). -/
theorem State.recover_eq (s : State) : s.recover =
    { s with ctrl := 0x44, pend := none, txnOpen := false, trace := s.trace ++ [.cw 0x00, .cw 0x44] } := by
  rw [State.recover, State.ctrlWrite_disabling s ctrlEn_off, State.ctrlWrite_enabling _ ctrlEn_recover]
  simp only [State.setTxnOpen, List.append_assoc]
  rfl

/-- A recovery and a finish after a completed phase, where nothing pends to be abandoned (60_exceptions.md R206). -/
theorem State.recover_finish_eq (hp : s.pend = none) (r : Byte) : s.recover.finish r =
    { s with
      ctrl := 0x44, txnOpen := false, result := r, eng := .idle
      trace := s.trace ++ [.cw 0x00, .cw 0x44, .res r] } := by
  simp only [State.recover_eq, State.finish, List.append_assoc, List.cons_append, List.nil_append, hp]

/-- A CTRL write that keeps the block enabled, a launch and a hold: the first engine step of a bus phase
(20_memory.md R58, R59). -/
theorem State.launchHold_eq (s : State) {v : Byte} (hv : ctrlEn v = true) (p : Phase) (e : Eng) :
    ((s.ctrlWrite v).launch p).hold e =
      { s with
        ctrl := ctrlAfterWrite s.ctrl v, pend := some p, eng := e, trace := s.trace ++ [.cw v, .ph p] } := by
  simp only [State.ctrlWrite_enabling s hv, State.launch, State.hold, List.append_assoc, List.cons_append,
    List.nil_append]

theorem State.stopSeqLaunch_eq (s : State) (c : Instr) (saved : Option Byte) : s.stopSeqLaunch c saved =
    { s with ctrl := 0x14, pend := some .stop, eng := .wStop c saved, trace := s.trace ++ [.cw 0x94, .ph .stop] } := by
  rw [State.stopSeqLaunch, State.launchHold_eq s ctrlEn_stop, ctrlAfterWrite_stop, ctrlStop]

/-! ### What the issue checks and the invariant say -/

/-- A command that neither reconfigures the block nor needs an open transaction is accepted by an idle, enabled block
(60_exceptions.md R210). -/
theorem issueCheck_enabledOnly (hd : decode (commandWord op s.arg) = .command c) (hb : c ≠ .beginCmd)
    (hr : isReconfiguration c = false) (hp : isDataPhase c = false) :
    issueCheck s op = if s.busy then .reject .busy else if s.enabled then .accept c else .reject .disabled := by
  rw [issueCheck_command hd]
  cases s.enabled <;> simp [hb, hr, hp]

/-- In a hold whose phase has completed, CTRL is what the command wrote with INT set and STO cleared
(20_memory.md R60). -/
theorem State.Inv.ctrl_completed (k : s.Inv) (he : s.eng.inHold = true) (hp : s.pend = none) :
    s.ctrl = ctrlAfterCompletion (pendingCtrl s.eng) := by
  rw [k.holdCtrl he, if_pos hp]

theorem State.Inv.ctrl_stopCompleted {saved : Option Byte} (k : s.Inv) (he : s.eng = .wStop c saved)
    (hp : s.pend = none) : s.ctrl = 0x84 := by
  rw [k.ctrl_completed (by rw [he]; rfl) hp, he, pendingCtrl]
  rfl

/-! ### The engine steps of START and STOP -/

/-- A command that launches a phase holds while its phase pends (10_state.md R30). -/
theorem exec_awaiting (hi : i = .stop ∨ (mainPhase i).isSome = true) (h : s.stage = .awaiting) :
    exec i s = .next s := by
  cases i with
  | beginCmd | endCmd | setLowSpeed | setHighSpeed => simp [mainPhase] at hi
  | start => rw [exec, execStart, h]
  | stop => rw [exec, execStop, h]
  | sendAddress a d => rw [exec, execSendAddress, h]
  | sendByte d => rw [exec, execSendByte, h]
  | receiveByte k => rw [exec, execReceiveByte, h]

theorem exec_start_launch (h : s.stage = .first) :
    exec .start s = .next (((s.ctrlWrite ctrlStart).launch .start).hold (.wMain .start)) := by
  rw [exec, execStart, h]

theorem exec_start_success (h : s.stage = .mainDone st) (hv : verdictStart st = .success) :
    exec .start s = .next ((s.setTxnOpen true).finish 0x00) := by
  simp only [exec, execStart, h, hv]

theorem exec_start_fail (h : s.stage = .mainDone st) (hv : verdictStart st = .fail) :
    exec .start s = .next (s.failExit st) := by
  simp only [exec, execStart, h, hv]

theorem exec_stop_launch (h : s.stage = .first) : exec .stop s = .next (s.stopSeqLaunch .stop none) := by
  rw [exec, execStop, h]

theorem exec_stop_success (h : s.stage = .stopDone none st) (hv : verdictStop st = .success) :
    exec .stop s = .next ((s.setTxnOpen false).finish 0x00) := by
  simp only [exec, execStop, h, hv, State.stopSeqEnd_success s hv]

/-- The recovery is the micro-sequence's own; STOP only finishes with the status (41_bus_conditions.md R122). -/
theorem exec_stop_fail (h : s.stage = .stopDone none st) (hv : verdictStop st = .fail) :
    exec .stop s = .next ((s.setTxnOpen false).recover.finish (enc st)) := by
  simp only [exec, execStop, h, hv, State.stopSeqEnd_fail s hv]

end Sys2Proof.Machine
end

section
/-! The statements about the bus conditions (41_bus_conditions.md). -/

namespace Sys2Proof.Machine

/-- Settles O31: a stop other than a success is a failure, which recovers once, and the invariant fixes CTRL once the
STOP phase has completed. -/
theorem stopSequenceRule : Obligations.StopSequenceRule := by
  refine ⟨State.stopSeqLaunch_eq, fun s => s.stopSeqEnd_success (verdictStop_success rfl), fun s st hst => ?_,
    fun s c saved k => k.ctrl_stopCompleted⟩
  rw [s.stopSeqEnd_fail (verdictStop_fail hst), State.recover_eq]
  rfl

/-- Settles O39: START launches from its first statement, opens the transaction on either success status, and leaves by
the failure exit on every other. -/
theorem startRule : Obligations.StartRule := by
  refine ⟨rfl, fun s harg => ?_, fun s he => ?_, fun s p he hp => ?_, fun s he hp hst => ?_, fun s k he hp => ?_,
    fun s he hp h8 h10 => ?_⟩
  · have hd : decode (commandWord 0x10 s.arg) = .command .start := by rw [harg]; rfl
    exact issueCheck_enabledOnly hd (by decide) rfl rfl
  · rw [exec_start_launch (State.stage_issued he), State.launchHold_eq s ctrlEn_start, ctrlAfterWrite_start, ctrlStart]
  · exact exec_awaiting (.inr rfl) (State.stage_wMain_pending he hp)
  · exact exec_start_success (State.stage_wMain_done he hp) (verdictStart_success hst)
  · rw [k.ctrl_completed (by rw [he]; rfl) hp, he]
    rfl
  · rw [exec_start_fail (State.stage_wMain_done he hp) (verdictStart_fail h8 h10), State.failExit,
      State.recover_finish_eq hp, enc]

/-- Settles O40: STOP asks nothing of the transaction; it finishes with 0x00 on a successful stop and with the encoded
status after the micro-sequence's recovery on every other. -/
theorem stopRule : Obligations.StopRule := by
  refine ⟨rfl, fun s harg => ?_, fun s he => ?_, fun s p he hp => ?_, fun s he hp hst => ?_,
    fun s k => k.ctrl_stopCompleted, fun s he hp hst => ?_⟩
  · have hd : decode (commandWord 0x11 s.arg) = .command .stop := by rw [harg]; rfl
    exact issueCheck_enabledOnly hd (by decide) rfl rfl
  · rw [exec_stop_launch (State.stage_issued he), State.stopSeqLaunch_eq]
  · exact exec_awaiting (.inl rfl) (State.stage_wStop_pending he hp)
  · exact exec_stop_success (State.stage_wStop_done he hp) (verdictStop_success hst)
  · have hp' : (s.setTxnOpen false).pend = none := hp
    rw [exec_stop_fail (State.stage_wStop_done he hp) (verdictStop_fail hst), State.recover_finish_eq hp', enc]
    rfl

end Sys2Proof.Machine
end

section
/-! SUPPORT. The words, verdicts, launches and exits of the data-phase commands, and their engine step from each place
of the engine (42_data_phase.md). -/

namespace Sys2Proof

variable {arg : Byte}

/-! ### The data-phase words (30_encoding.md R83 to R85) -/

/-- A word with a row's OP and none of the ARG bits the row reserves decodes to the row's command. -/
theorem decode_row {i : Instr} (r : OpRow) (harg : arg &&& r.argMask = 0x00)
    (hi : r.command (commandWord r.opcode arg) = i) : decode (commandWord r.opcode arg) = .command i :=
  hi ▸ decode_of_match ((r.match_iff _ _).mpr ⟨rfl, harg⟩)

theorem decode_sendAddress (a : BitVec 7) (d : BitVec 1) :
    decode (commandWord 0x12 (Machine.slaByte a d)) = .command (.sendAddress a d) := by
  have ha : (commandWord 0x12 (Machine.slaByte a d)).extractLsb' 1 7 = a :=
    (BitVec.extractLsb'_append_eq_of_add_le (by decide)).trans BitVec.extractLsb'_append_eq_left
  have hd : (commandWord 0x12 (Machine.slaByte a d)).extractLsb' 0 1 = d :=
    (BitVec.extractLsb'_append_eq_of_add_le (by decide)).trans BitVec.extractLsb'_append_eq_right
  exact decode_row .sendAddressRow BitVec.and_zero (congrArg₂ Instr.sendAddress ha hd)

theorem decode_sendByte (b : Byte) : decode (commandWord 0x13 b) = .command (.sendByte b) :=
  decode_row .sendByteRow BitVec.and_zero (congrArg Instr.sendByte (commandWord_argField 0x13 b))

theorem decode_receiveByte :
    ∀ k : BitVec 1, decode (commandWord 0x14 (k.setWidth 8)) = .command (.receiveByte k) := by
  decide

end Sys2Proof

namespace Sys2Proof.Machine

variable {s : State} {op b st saved : Byte} {c i : Instr} {p : Phase}

/-! ### The issue checks (60_exceptions.md R210) -/

/-- A data-phase command is accepted by an idle, enabled block with an open transaction. -/
theorem issueCheck_dataPhase (hd : decode (commandWord op s.arg) = .command c) (hc : isDataPhase c = true) :
    issueCheck s op =
      if s.busy then .reject .busy
      else if s.enabled then (if s.txnOpen then .accept c else .reject .noTxn)
      else .reject .disabled := by
  have hb : c ≠ .beginCmd := by rintro rfl; cases hc
  have hr : isReconfiguration c = false := by
    cases c with
    | sendAddress | sendByte | receiveByte => rfl
    | _ => cases hc
  rw [issueCheck_command hd]
  cases s.enabled <;> cases s.txnOpen <;> simp [hb, hr, hc]

/-! ### Verdicts (60_exceptions.md R200) -/

theorem verdictSendAddress_ack (h : st = 0x18 ∨ st = 0x40) : verdictSendAddress st = .success := if_pos h

theorem verdictSendAddress_refused (h : st = 0x20 ∨ st = 0x48) : verdictSendAddress st = .nack := by
  rcases h with rfl | rfl <;> rfl

theorem verdictSendAddress_fail (h : st ∉ [0x18, 0x40, 0x20, 0x48]) : verdictSendAddress st = .fail := by
  simp only [List.mem_cons, List.not_mem_nil, or_false, not_or] at h
  obtain ⟨h18, h40, h20, h48⟩ := h
  rw [verdictSendAddress, if_neg (not_or.mpr ⟨h18, h40⟩), if_neg (not_or.mpr ⟨h20, h48⟩)]

theorem verdictSendByte_fail (h28 : st ≠ 0x28) (h30 : st ≠ 0x30) : verdictSendByte st = .fail := by
  rw [verdictSendByte, if_neg h28, if_neg h30]

theorem verdictReceiveByte_success (h : st = 0x50 ∨ st = 0x58) : verdictReceiveByte st = .success := if_pos h

theorem verdictReceiveByte_fail (h50 : st ≠ 0x50) (h58 : st ≠ 0x58) : verdictReceiveByte st = .fail :=
  if_neg (not_or.mpr ⟨h50, h58⟩)

/-! ### Launch and exits as whole next states -/

/-- The first engine step of a send (42_data_phase.md R140, R141). -/
theorem State.sendLaunch_eq (s : State) (b : Byte) (p : Phase) (c : Instr) : s.sendLaunch b p c =
    { s with
      data := b, ctrl := 0x04, pend := some p, eng := .wMain c, trace := s.trace ++ [.dw b, .cw 0x84, .ph p] } := by
  rw [State.sendLaunch, State.launchHold_eq _ ctrlEn_send, ctrlAfterWrite_send, ctrlSend]
  simp only [State.dataWrite, List.append_assoc, List.cons_append, List.nil_append]

/-- A failure exit after a completed phase (60_exceptions.md R206). -/
theorem State.failExit_eq (hp : s.pend = none) (st : Byte) : s.failExit st =
    { s with
      ctrl := 0x44, txnOpen := false, result := if st = 0x00 then 0xFF else st, eng := .idle
      trace := s.trace ++ [.cw 0x00, .cw 0x44, .res (if st = 0x00 then 0xFF else st)] } := by
  rw [State.failExit, State.recover_finish_eq hp, enc]

/-- A NACK path whose stop succeeded reports the NACK status (60_exceptions.md R205). -/
theorem State.nackDone_success (hv : verdictStop st = .success) (saved : Byte) : s.nackDone saved st =
    { s with txnOpen := false, result := saved, eng := .idle, trace := s.trace ++ [.res saved] } := by
  rw [State.nackDone, s.stopSeqEnd_success hv]
  rfl

/-- A NACK path whose stop failed recovers and still reports the NACK status (60_exceptions.md R205). -/
theorem State.nackDone_fail (hp : s.pend = none) (hv : verdictStop st = .fail) (saved : Byte) : s.nackDone saved st =
    { s with
      ctrl := 0x44, txnOpen := false, result := saved, eng := .idle
      trace := s.trace ++ [.cw 0x00, .cw 0x44, .res saved] } := by
  have hp' : (s.setTxnOpen false).pend = none := hp
  rw [State.nackDone, s.stopSeqEnd_fail hv, State.recover_finish_eq hp']
  rfl

/-! ### The engine step after the main phase of a data-phase command -/

/-- The verdict on the completed phase decides; RECEIVE_BYTE has no NACK verdict (42_data_phase.md R140 to R142). -/
theorem exec_dataPhase_done {v : Verdict} (hi : isDataPhase i = true) (h : s.stage = .mainDone st)
    (hv : classify i st = some v) : exec i s = .next (s.sendDone v st i) := by
  cases i with
  | sendAddress a d =>
    have hv' : verdictSendAddress st = v := Option.some.inj hv
    simp only [exec, execSendAddress, h, hv']
  | sendByte b =>
    have hv' : verdictSendByte st = v := Option.some.inj hv
    simp only [exec, execSendByte, h, hv']
  | receiveByte k =>
    have hv' : verdictReceiveByte st = v := Option.some.inj hv
    cases v with
    | nack => exact absurd hv' (verdictReceiveByte_ne_nack st)
    | success | fail => simp only [exec, execReceiveByte, h, hv', State.sendDone]
  | _ => cases hi

theorem exec_dataPhase_success (hi : isDataPhase i = true) (he : s.eng = .wMain i) (hp : s.pend = none)
    (hv : classify i s.maskedStatus = some .success) :
    exec i s = .next { s with result := 0x00, eng := .idle, trace := s.trace ++ [.res 0x00] } :=
  exec_dataPhase_done hi (State.stage_wMain_done he hp) hv

theorem exec_dataPhase_nack (hi : isDataPhase i = true) (he : s.eng = .wMain i) (hp : s.pend = none)
    (hv : classify i s.maskedStatus = some .nack) :
    exec i s = .next { s with
      ctrl := 0x14, pend := some .stop, eng := .wStop i (some s.maskedStatus)
      trace := s.trace ++ [.cw 0x94, .ph .stop] } := by
  rw [exec_dataPhase_done hi (State.stage_wMain_done he hp) hv, State.sendDone, State.stopSeqLaunch_eq]

theorem exec_dataPhase_fail (hi : isDataPhase i = true) (he : s.eng = .wMain i) (hp : s.pend = none)
    (hv : classify i s.maskedStatus = some .fail) :
    exec i s = .next { s with
      ctrl := 0x44, txnOpen := false, result := if s.maskedStatus = 0x00 then 0xFF else s.maskedStatus, eng := .idle
      trace := s.trace ++
        [.cw 0x00, .cw 0x44, .res (if s.maskedStatus = 0x00 then 0xFF else s.maskedStatus)] } := by
  rw [exec_dataPhase_done hi (State.stage_wMain_done he hp) hv, State.sendDone, State.failExit_eq hp]

/-! ### The sends: SEND_ADDRESS and SEND_BYTE -/

/-- A send, the byte it puts in DATA and the phase it launches (42_data_phase.md R140, R141). -/
inductive SendCommand : Instr → Byte → Phase → Prop where
  | address (a : BitVec 7) (d : BitVec 1) : SendCommand (.sendAddress a d) (slaByte a d) (.addr (slaByte a d))
  | byte (b : Byte) : SendCommand (.sendByte b) b (.tx b)

theorem SendCommand.mainPhase_eq (h : SendCommand i b p) : mainPhase i = some p := by cases h <;> rfl

/-- The CTRL value of a send is 0x84, of which INT is cleared by the write (42_data_phase.md R140, R141). -/
theorem SendCommand.pendingCtrl_eq (h : SendCommand i b p) : pendingCtrl (.wMain i) = 0x04 := by cases h <;> rfl

theorem SendCommand.exec_launch (h : SendCommand i b p) (he : s.eng = .issued i) :
    exec i s = .next { s with
      data := b, ctrl := 0x04, pend := some p, eng := .wMain i, trace := s.trace ++ [.dw b, .cw 0x84, .ph p] } := by
  have hst := State.stage_issued he
  rw [← State.sendLaunch_eq]
  cases h with
  | address a d => rw [exec, execSendAddress, hst]
  | byte b => rw [exec, execSendByte, hst]

/-- A send holds while its main phase or the stop of its NACK path pends (10_state.md R30). -/
theorem SendCommand.exec_held (h : SendCommand i b p) {q : Phase} {saved : Option Byte}
    (he : s.eng = .wMain i ∨ s.eng = .wStop i saved) (hp : s.pend = some q) : exec i s = .next s := by
  have hi : (mainPhase i).isSome = true := by rw [h.mainPhase_eq]; rfl
  rcases he with he | he
  · exact exec_awaiting (.inr hi) (State.stage_wMain_pending he hp)
  · exact exec_awaiting (.inr hi) (State.stage_wStop_pending he hp)

theorem SendCommand.exec_nackDone (h : SendCommand i b p) (he : s.eng = .wStop i (some saved)) (hp : s.pend = none) :
    exec i s = .next (s.nackDone saved s.maskedStatus) := by
  have hst := State.stage_wStop_done he hp
  cases h with
  | address a d => rw [exec, execSendAddress, hst]
  | byte b => rw [exec, execSendByte, hst]

/-- The two ends of a send's NACK path (60_exceptions.md R205). -/
theorem SendCommand.exec_nackPathEnd (h : SendCommand i b p) (he : s.eng = .wStop i (some saved))
    (hp : s.pend = none) :
    (s.maskedStatus = 0xF8 → exec i s =
      .next { s with txnOpen := false, result := saved, eng := .idle, trace := s.trace ++ [.res saved] }) ∧
    (s.maskedStatus ≠ 0xF8 → exec i s =
      .next { s with
        ctrl := 0x44, txnOpen := false, result := saved, eng := .idle
        trace := s.trace ++ [.cw 0x00, .cw 0x44, .res saved] }) := by
  rw [h.exec_nackDone he hp]
  refine ⟨fun hst => ?_, fun hst => ?_⟩
  · rw [State.nackDone_success (verdictStop_success hst)]
  · rw [State.nackDone_fail hp (verdictStop_fail hst)]

theorem SendCommand.ctrl_completed (h : SendCommand i b p) (k : s.Inv) (he : s.eng = .wMain i) (hp : s.pend = none) :
    s.ctrl = 0x84 := by
  rw [k.ctrl_completed (by rw [he]; rfl) hp, he, h.pendingCtrl_eq]
  rfl

/-! ### RECEIVE_BYTE -/

theorem exec_receiveByte_launch {k : BitVec 1} (he : s.eng = .issued (.receiveByte k)) :
    exec (.receiveByte k) s = .next { s with
      ctrl := if k = 1 then 0x44 else 0x04, pend := some (.rx k), eng := .wMain (.receiveByte k)
      trace := s.trace ++ [.cw (if k = 1 then 0xC4 else 0x84), .ph (.rx k)] } := by
  rw [exec, execReceiveByte, State.stage_issued he, State.launchHold_eq s (ctrlEn_receive k),
    ctrlAfterWrite_receive, ctrlReceive]

/-- CTRL keeps the acknowledge bit the command wrote (20_memory.md R60). -/
theorem State.Inv.ctrl_receiveCompleted {k : BitVec 1} (h : s.Inv) (he : s.eng = .wMain (.receiveByte k))
    (hp : s.pend = none) : s.ctrl = if k = 1 then 0xC4 else 0x84 := by
  rw [h.ctrl_completed (by rw [he]; rfl) hp, he, pendingCtrl]
  split <;> rfl

end Sys2Proof.Machine
end

section
/-! The statements about the data phases (42_data_phase.md). -/

namespace Sys2Proof.Machine

/-- Settles O41: the operand is the SLA byte, which the launch sends; an ACK code of either direction is a success, a
NACK code of either direction enters the stop, and every other status leaves by the failure exit. -/
theorem sendAddressRule : Obligations.SendAddressRule := by
  intro a d b hb
  obtain rfl : b = slaByte a d := hb.trans (sendAddress_argByte a d)
  have send := SendCommand.address a d
  refine ⟨congrArg (commandWord 0x12) (sendAddress_argByte a d), fun s harg => ?_, fun _ => send.exec_launch,
    fun _ _ _ => send.exec_held, fun s he hp hst => ?_, fun _ => send.ctrl_completed, fun s he hp hst => ?_,
    fun _ _ => send.exec_nackPathEnd, fun s he hp hst => ?_⟩
  · exact issueCheck_dataPhase (harg ▸ decode_sendAddress a d) rfl
  · exact exec_dataPhase_success rfl he hp (congrArg some (verdictSendAddress_ack hst))
  · exact exec_dataPhase_nack rfl he hp (congrArg some (verdictSendAddress_refused hst))
  · exact exec_dataPhase_fail rfl he hp (congrArg some (verdictSendAddress_fail hst))

/-- Settles O42: the operand is the byte sent; 0x28 is a success, 0x30 enters the stop with that status saved, and every
other status leaves by the failure exit. -/
theorem sendByteRule : Obligations.SendByteRule := by
  intro b
  have send := SendCommand.byte b
  refine ⟨rfl, fun s harg => ?_, fun _ => send.exec_launch, fun _ _ _ => send.exec_held, fun s he hp hst => ?_,
    fun _ => send.ctrl_completed, fun s he hp hst => ?_, fun _ _ => send.exec_nackPathEnd, fun s he hp h28 h30 => ?_⟩
  · exact issueCheck_dataPhase (harg ▸ decode_sendByte b) rfl
  · exact exec_dataPhase_success rfl he hp (by rw [hst]; rfl)
  · rw [exec_dataPhase_nack rfl he hp (by rw [hst]; rfl), hst]
  · exact exec_dataPhase_fail rfl he hp (congrArg some (verdictSendByte_fail h28 h30))

/-- Settles O43: the acknowledge operand shows in CTRL and in the phase only; the verdict on the completed phase does
not see it and has no NACK path. -/
theorem receiveByteRule : Obligations.ReceiveByteRule := by
  refine ⟨rfl, rfl, fun s k harg => ?_, fun _ _ => exec_receiveByte_launch, fun s k p he hp => ?_,
    fun s k he hp hst => ?_, fun _ _ h => h.ctrl_receiveCompleted, fun s k he hp h50 h58 => ?_⟩
  · exact issueCheck_dataPhase (harg ▸ decode_receiveByte k) rfl
  · exact exec_awaiting (.inr rfl) (State.stage_wMain_pending he hp)
  · exact exec_dataPhase_success rfl he hp (congrArg some (verdictReceiveByte_success hst))
  · exact exec_dataPhase_fail rfl he hp (congrArg some (verdictReceiveByte_fail h50 h58))

end Sys2Proof.Machine
end

section
/-! SUPPORT. The invariant and the order of the trace along a step, the issue checks of an idle block by the class of the
command, the verdict of a row on its two sets, and the failure exit as a whole next state (60_exceptions.md). -/

namespace Sys2Proof.Machine

variable {s t : State} {op st : Byte} {c : Instr}

/-! ### What every step keeps -/

/-- Every step keeps the invariant: whatever is outside the block does not count, and each move of the block keeps it. -/
theorem State.Inv.step (k : s.Inv) (h : step s = .next t) : t.Inv := by
  cases step_move h with
  | outside e => exact k.congr e
  | reset u e ht => exact ht ▸ State.Inv.resetAct u
  | engine u i e hi he => exact (k.congr e).engine hi (exec_move he)
  | completion u p o e hp ha ht => exact ht ▸ (k.congr e).completePhase hp o
  | argWrite v e => exact (k.setArg v).congr e
  | accepted op c hc e => exact (k.accept hc).congr e
  | faulted f e => exact (k.raiseFault f).congr e

/-- Every step from a state of a run keeps the trace in order (20_memory.md R66, 60_exceptions.md R208). -/
theorem State.TraceInOrder.step (k : s.TraceInOrder) (hv : s.Inv) (h : step s = .next t) : t.TraceInOrder := by
  cases step_move h with
  | outside e => exact k.congr e
  | reset u e ht => exact ht ▸ (k.congr e).resetAct
  | engine u i e hi he => exact (k.congr e).engine (hv.congr e) hi (exec_move he)
  | completion u p o e hp ha ht => exact ht ▸ (k.congr e).completePhase hp o
  | argWrite v e => exact (k.setArg v).congr e
  | accepted op c hc e => exact (k.accept hv hc).congr e
  | faulted f e => exact (k.raiseFault f).congr e

/-! ### The issue checks by the class of the command (60_exceptions.md R210) -/

theorem isReconfiguration_iff (c : Instr) :
    isReconfiguration c = true ↔ c = .beginCmd ∨ c = .setLowSpeed ∨ c = .setHighSpeed := by
  cases c <;> simp [isReconfiguration]

theorem isDataPhase_iff (c : Instr) :
    isDataPhase c = true ↔ (∃ a d, c = .sendAddress a d) ∨ (∃ b, c = .sendByte b) ∨ ∃ k, c = .receiveByte k := by
  cases c <;> simp [isDataPhase]

/-- A command in flight is found first, whatever is issued. -/
theorem issueCheck_busy (h : s.eng ≠ .idle) (op : Byte) : issueCheck s op = .reject .busy := by
  simp [issueCheck, State.busy, h]

/-- Where an idle block finds neither BUSY nor ILLEGAL nor DISABLED, checks 4 and 5 decide. -/
theorem issueCheck_admitted (hi : s.eng = .idle) (hd : decode (commandWord op s.arg) = .command c)
    (ha : c = .beginCmd ∨ s.enabled = true) :
    issueCheck s op =
      if isReconfiguration c = true ∧ s.txnOpen = true then .reject .midTxn
      else if isDataPhase c = true ∧ s.txnOpen = false then .reject .noTxn
      else .accept c := by
  have hbusy : s.busy ≠ true := by simp [State.busy, hi]
  have hadmitted : ¬(c ≠ .beginCmd ∧ s.enabled = false) := by
    rintro ⟨hc, he⟩
    exact ha.elim hc fun h => Bool.false_ne_true (he.symm.trans h)
  rw [issueCheck_command hd, if_neg hbusy, if_neg hadmitted]

/-- A reconfiguration that is let through so far is refused inside a transaction only. -/
theorem issueCheck_reconfiguration (hi : s.eng = .idle) (hd : decode (commandWord op s.arg) = .command c)
    (ha : c = .beginCmd ∨ s.enabled = true) (hc : isReconfiguration c = true) :
    issueCheck s op = if s.txnOpen then .reject .midTxn else .accept c := by
  have hdata : isDataPhase c = false := by
    cases c with
    | beginCmd | setLowSpeed | setHighSpeed => rfl
    | _ => cases hc
  simp [issueCheck_admitted hi hd ha, hc, hdata]

/-- END, START and STOP ask nothing of the transaction. -/
theorem issueCheck_unconditional (hi : s.eng = .idle) (hd : decode (commandWord op s.arg) = .command c)
    (ha : c = .beginCmd ∨ s.enabled = true) (hc : c = .endCmd ∨ c = .start ∨ c = .stop) :
    issueCheck s op = .accept c := by
  rw [issueCheck_admitted hi hd ha]
  rcases hc with rfl | rfl | rfl <;> simp [isReconfiguration, isDataPhase]

/-- A data-phase command that an idle, enabled block checks is refused outside a transaction only. -/
theorem issueCheck_admittedDataPhase (hi : s.eng = .idle) (hd : decode (commandWord op s.arg) = .command c)
    (ha : c = .beginCmd ∨ s.enabled = true) (hc : isDataPhase c = true) :
    issueCheck s op = if s.txnOpen then .accept c else .reject .noTxn := by
  have he : s.enabled = true := ha.resolve_left (by rintro rfl; cases hc)
  simp [issueCheck_dataPhase hd hc, State.busy, hi, he]

/-! ### A row of the classification (60_exceptions.md R200) -/

theorem verdictSendByte_success (h : st = 0x28) : verdictSendByte st = .success := if_pos h

theorem verdictSendByte_refused (h : st = 0x30) : verdictSendByte st = .nack := by rw [h]; rfl

/-- A verdict that is `success` on `P`, `nack` on `N` and `fail` elsewhere is each of them exactly there: `P` and `N` are
disjoint, since the verdict is one. -/
theorem classify_exactly {v : Verdict} {P N : Prop} (hc : classify c st = some v) (hP : P → v = .success)
    (hN : N → v = .nack) (hfail : ¬P → ¬N → v = .fail) :
    (classify c st = some .success ↔ P) ∧ (classify c st = some .nack ↔ N) ∧
      (classify c st = some .fail ↔ ¬P ∧ ¬N) := by
  rw [hc]
  by_cases p : P
  · have n : ¬N := fun n => Verdict.noConfusion ((hP p).symm.trans (hN n))
    simp [hP p, p, n]
  · by_cases n : N
    · simp [hN n, p, n]
    · simp [hfail p n, p, n]

/-- The stop of a NACK path is classified by STOP's row (60_exceptions.md R200, R205). -/
theorem State.nackDone_eq (s : State) (saved st : Byte) : s.nackDone saved st =
    if classify .stop st = some .success then (s.setTxnOpen false).finish saved
    else (s.setTxnOpen false).recover.finish saved := by
  rw [State.nackDone, classify]
  rcases s.stopSeqEnd_cases st with ⟨hv, e⟩ | ⟨hv, e⟩ <;> simp [e, hv]

/-- The failure exit, also where a phase still pends: the recovery abandons it (60_exceptions.md R206). -/
theorem State.failExit_whole (s : State) (st : Byte) : s.failExit st =
    { s with
      ctrl := 0x44, pend := none, txnOpen := false, result := if st = 0x00 then 0xFF else st, eng := .idle
      trace := s.trace ++ [.cw 0x00, .cw 0x44, .res (if st = 0x00 then 0xFF else st)] } := by
  rw [State.failExit, State.recover_eq, enc]
  simp only [State.finish, List.append_assoc]
  rfl

end Sys2Proof.Machine
end

section
/-! The statements about the detector, the exits and the host faults (60_exceptions.md). -/

namespace Sys2Proof.Machine

/-- Settles O46: each move of a step appends events that read on from the machine's place, and the invariant, which the
step keeps, closes the transaction of a failed command. -/
theorem everyStepKeepsTheTraceInOrder : Obligations.EveryStepKeepsTheTraceInOrder :=
  fun _ _ hv k h => ⟨k.step hv h, (hv.step h).failedClosed⟩

/-- Settles O14: each check is asked only where those before it have found nothing, and a disabled block has no open
transaction by the invariant. -/
theorem issueChecksComeInOrder : Obligations.IssueChecksComeInOrder := by
  refine ⟨fun s op => ⟨fun hb => issueCheck_busy hb op, fun hi => ⟨fun why hd => issueCheck_illegal hi hd,
    fun c hd => ⟨fun hc he => issueCheck_disabled hi he hd hc, fun ha => ?_⟩⟩⟩, fun s k he => ?_⟩
  · rw [← isReconfiguration_iff, ← isDataPhase_iff]
    refine ⟨fun hc ho => ?_, fun hc ho => ?_, fun hc ho => ?_, fun hc ho => ?_, issueCheck_unconditional hi hd ha⟩
    · rw [issueCheck_reconfiguration hi hd ha hc, if_pos ho]
    · rw [issueCheck_admittedDataPhase hi hd ha hc, ho]
      rfl
    · rw [issueCheck_reconfiguration hi hd ha hc, ho]
      rfl
    · rw [issueCheck_admittedDataPhase hi hd ha hc, if_pos ho]
  · obtain ⟨-, -, hclosed, -⟩ := k.disabledCleared he
    exact hclosed

/-- Settles O27: the verdict of each row on its success set, on its NACK set and elsewhere; a NACK path's stop asks STOP's
row. -/
theorem classificationTable : Obligations.ClassificationTable := by
  refine ⟨?_, State.nackDone_eq⟩
  rintro c st success nack (⟨rfl, rfl, rfl⟩ | ⟨rfl, rfl, rfl⟩ | ⟨⟨a, d, rfl⟩, rfl, rfl⟩ | ⟨⟨b, rfl⟩, rfl, rfl⟩ |
    ⟨⟨k, rfl⟩, rfl, rfl⟩)
  · simpa using classify_exactly (c := .start) rfl verdictStart_success False.elim
      fun h _ => (not_or.mp h).elim verdictStart_fail
  · simpa using classify_exactly (c := .stop) rfl verdictStop_success False.elim fun h _ => verdictStop_fail h
  · simpa using classify_exactly (c := .sendAddress a d) rfl verdictSendAddress_ack verdictSendAddress_refused
      fun h h' => verdictSendAddress_fail (by simpa [and_assoc] using And.intro h h')
  · simpa using classify_exactly (c := .sendByte b) rfl verdictSendByte_success verdictSendByte_refused
      verdictSendByte_fail
  · simpa using classify_exactly (c := .receiveByte k) rfl verdictReceiveByte_success False.elim
      fun h _ => (not_or.mp h).elim verdictReceiveByte_fail

/-- Settles O30: the recovery and the failure exit as whole next states. -/
theorem recoveryAndFailureExit : Obligations.RecoveryAndFailureExit :=
  ⟨State.recover_eq, State.failExit_whole⟩

end Sys2Proof.Machine
end

section
/-! SUPPORT. A CMD write that the issue checks refuse, and BEGIN in a disabled block (20_memory.md R52,
60_exceptions.md R210). -/

namespace Sys2Proof.Machine

variable {s : State} {op : Byte}

/-- In a live state, a byte write of CMD that the checks refuse raises the fault they find. -/
theorem step_issueRejected {r : FaultReason} {rest : List Turn} (hq : s.quiescent = false)
    (h : s.turns = .access (.write (s.params.base + 5) 1 op) :: rest) (hc : issueCheck s op = .reject r) :
    step s = .next ((s.setTurns rest).raiseFault r) := by
  have hc' : issueCheck (s.setTurns rest) op = .reject r := hc
  have hissue : (s.setTurns rest).hostWrite .cmd op = (s.setTurns rest).raiseFault r := by
    simp only [State.hostWrite, State.issue, hc']
  rw [step_liveTurn hq h, ← hissue]
  exact congrArg Host.Outcome.next ((s.setTurns rest).hostAccess_write .cmd op)

/-- An idle, disabled block accepts BEGIN: by the invariant it has no open transaction, so MIDTXN is not found. -/
theorem State.Inv.issueCheck_begin (k : s.Inv) (hi : s.eng = .idle) (he : s.enabled = false)
    (hd : decode (commandWord op s.arg) = .command .beginCmd) : issueCheck s op = .accept .beginCmd := by
  obtain ⟨-, -, hclosed, -⟩ := k.disabledCleared he
  rw [issueCheck_reconfiguration hi hd (.inl rfl) rfl, hclosed]
  rfl

end Sys2Proof.Machine
end

section
/-! The statements about reset and the hazards (70_reset_and_hazards.md). -/

namespace Sys2Proof.Machine

/-- Settles O17: END's CTRL write and reset both clear EN; in a disabled block the DISABLED check refuses every
command but BEGIN, and BEGIN passes the checks. -/
theorem disabledBlockTakesOnlyBegin : Obligations.DisabledBlockTakesOnlyBegin := by
  refine ⟨fun s t _ h => ?_, fun s => ⟨ctrlEn_off, rfl⟩, fun s rest op c k hi he hq hd h => ⟨fun hc => ?_, ?_⟩⟩
  · obtain ⟨-, rfl⟩ := State.configStep_next h
    exact ⟨ctrlEn_afterWrite s.ctrl ctrlOff, rfl⟩
  · exact step_issueRejected hq h (issueCheck_disabled hi he hd hc)
  · rintro rfl
    exact step_issue hq h (k.issueCheck_begin hi he hd)

end Sys2Proof.Machine
end

section
/-! SUPPORT. The decoder inverts the encoder and the encoder the decoder, the number a command word stands for, and what
the assembler answers for one line (30_encoding.md R80 to R89). -/

namespace Sys2Proof

variable {w : CommandWord} {arg : Byte} {i : Instr}

/-! ### Decoding and encoding (30_encoding.md R87, R88) -/

theorem decode_encode (i : Instr) : decode (encode i) = .command i := by
  cases i with
  | sendAddress a d => rw [encode, sendAddress_argByte]; exact decode_sendAddress a d
  | sendByte b => exact decode_sendByte b
  | receiveByte k => exact decode_receiveByte k
  | beginCmd | endCmd | setLowSpeed | setHighSpeed | start | stop => rfl

/-- A word decodes to a command by a row that it matches (30_encoding.md R88). -/
theorem decode_command (h : decode w = .command i) : ∃ r : OpRow, w &&& r.mask = r.pattern ∧ r.command w = i := by
  by_cases hr : ∃ r : OpRow, w &&& r.mask = r.pattern
  · obtain ⟨r, hr⟩ := hr
    rw [decode_of_match hr] at h
    exact ⟨r, hr, Decoded.command.inj h⟩
  · rw [decode_of_no_match (not_exists.mp hr)] at h
    cases h

/-- The SLA byte is made of its two fields (30_encoding.md R83). -/
theorem slaByte_fields (b : Byte) : Machine.slaByte (b.extractLsb' 1 7) (b.extractLsb' 0 1) = b :=
  BitVec.extractLsb'_append_extractLsb'

/-- A field of ARG is that field of the command word. -/
theorem commandWord_extractArg (op arg : Byte) {start len : Nat} (h : start + len ≤ 8) :
    (commandWord op arg).extractLsb' start len = arg.extractLsb' start len :=
  BitVec.extractLsb'_append_eq_of_add_le h

theorem OpRow.command_op (r : OpRow) (w : CommandWord) : (r.command w).op = r.opcode := by cases r <;> rfl

/-- Where the reserved ARG bits are zero, the operand of a row's command is the whole ARG byte (30_encoding.md R81). -/
theorem OpRow.command_argByte (r : OpRow) (op : Byte) (h : arg &&& r.argMask = 0x00) :
    (r.command (commandWord op arg)).argByte = arg := by
  cases r with
  | sendAddressRow =>
    rw [OpRow.command, sendAddress_argByte, commandWord_extractArg op arg (by decide),
      commandWord_extractArg op arg (by decide), slaByte_fields]
  | sendByteRow => exact commandWord_argField op arg
  | receiveByteRow =>
    have ack : ∀ x : Byte, x &&& 0xFE = 0x00 → (x.extractLsb' 0 1).setWidth 8 = x := by decide
    rw [OpRow.command, commandWord_extractArg op arg (by decide)]
    exact ack arg h
  | beginRow | endRow | setLowSpeedRow | setHighSpeedRow | startRow | stopRow =>
    exact h.symm.trans (byte_and_ones arg)

theorem encode_of_decode (h : decode w = .command i) : encode i = w := by
  obtain ⟨r, hr, rfl⟩ := decode_command h
  rw [← commandWord_fields w] at hr ⊢
  obtain ⟨hop, harg⟩ := (r.match_iff _ _).mp hr
  rw [encode, r.command_op, r.command_argByte _ harg, hop]

/-! ### The number a command word stands for -/

theorem commandWord_toNat (op arg : Byte) : (commandWord op arg).toNat = 256 * op.toNat + arg.toNat := by
  rw [commandWord, BitVec.toNat_append, ← Nat.shiftLeft_add_eq_or_of_lt arg.isLt, Nat.shiftLeft_eq, Nat.mul_comm]

theorem encode_sendAddress_toNat (a : BitVec 7) (d : BitVec 1) :
    (encode (.sendAddress a d)).toNat = 0x1200 + 2 * a.toNat + d.toNat := by
  rw [encode, commandWord_toNat, sendAddress_argByte, slaByte_toNat, ← Nat.add_assoc]
  rfl

end Sys2Proof

namespace Sys2Proof.Machine

variable {l : AsmLine}

theorem encode_sendSlaCommand_toNat (b : Byte) : (encode (sendSlaCommand b)).toNat = 0x1200 + b.toNat := by
  rw [encode, commandWord_toNat, sendSlaCommand, sendAddress_argByte, slaByte_fields]
  rfl

/-! ### The assembler on one line (30_encoding.md R89) -/

theorem assemble_line (h : l.wf = true) : assemble [l] = some (asmExpansion l) := by
  simp [assemble, h]

theorem assemble_refused (h : l.wf = false) : assemble [l] = none := by
  simp [assemble, h]

theorem byte_ofNat_toNat {b : Nat} (h : b ≤ 255) : (BitVec.ofNat 8 b).toNat = b :=
  Nat.mod_eq_of_lt (by omega)

/-- A SEND_ADDRESS line with an address that the assembler takes (30_encoding.md R83, R89). -/
theorem assemble_sendAddress {a : Nat} {dir : Char} (ha : a ≤ 127) (hd : dir = 'W' ∨ dir = 'R') :
    ∃ i, assemble [.sendAddress a dir] = some [.command i] ∧
      (encode i).toNat = 0x1200 + 2 * a + (directionBit dir).toNat := by
  have haddr : (BitVec.ofNat 7 a).toNat = a := Nat.mod_eq_of_lt (by omega)
  refine ⟨_, assemble_line (by simpa [AsmLine.wf, ha] using hd), ?_⟩
  rw [encode_sendAddress_toNat, haddr]

/-- A comment is no part of a line (30_encoding.md R89). -/
theorem stripComment_append (line comment : List Char) : stripComment (line ++ ';' :: comment) = stripComment line := by
  induction line with
  | nil => rfl
  | cons c cs ih =>
    simp only [stripComment, List.cons_append, List.takeWhile_cons] at ih ⊢
    rw [ih]

end Sys2Proof.Machine
end

section
/-! The statements about the words of the commands and their assembly (30_encoding.md). -/

namespace Sys2Proof.Machine

/-- Settles O2: each command's word matches the command's own row, and the row's fields are the operands. -/
theorem decodeOfEncodeIsTheCommand : Obligations.DecodeOfEncodeIsTheCommand := decode_encode

/-- Settles O3: a word decodes by a row that it matches, so its OP is the row's and its ARG the operand. -/
theorem encodeOfDecodeIsTheWord : Obligations.EncodeOfDecodeIsTheWord := fun _ _ => encode_of_decode

/-- Settles O1: each legal word is matched to its row, each illegal one runs past all rows. -/
theorem wordsOfTheOpcodeMapDecode : Obligations.WordsOfTheOpcodeMapDecode := by
  unfold Obligations.WordsOfTheOpcodeMapDecode
  decide

/-- Settles O7: a well-formed line stands for its expansion, whose word is OP above the operand; a line that is not
well-formed is refused. -/
theorem assemblerWordsAndRefusals : Obligations.AssemblerWordsAndRefusals := by
  refine ⟨⟨rfl, rfl⟩, ⟨rfl, rfl⟩, ⟨rfl, rfl⟩, ⟨rfl, rfl⟩, ⟨rfl, rfl⟩, ⟨rfl, rfl⟩, fun a ha => ⟨?_, ?_⟩,
    fun b hb => ⟨⟨_, assemble_line (decide_eq_true hb), ?_⟩, ⟨_, assemble_line (decide_eq_true hb), ?_⟩⟩,
    ⟨_, rfl, rfl⟩, ⟨_, rfl, rfl⟩, fun a dir h => assemble_refused ?_, fun b hb => ⟨?_, ?_⟩, fun line comment => ?_⟩
  · exact assemble_sendAddress ha (.inl rfl)
  · exact assemble_sendAddress ha (.inr rfl)
  · rw [encode_sendSlaCommand_toNat, byte_ofNat_toNat hb]
  · rw [encode, commandWord_toNat, Instr.argByte, byte_ofNat_toNat hb]
    rfl
  · rcases h with h | ⟨hW, hR⟩
    · simp [AsmLine.wf, h]
    · simp [AsmLine.wf, hW, hR]
  · exact assemble_refused (decide_eq_false (Nat.not_le.mpr hb))
  · exact assemble_refused (decide_eq_false (Nat.not_le.mpr hb))
  · rw [parseLine, stripComment_append, parseLine]

end Sys2Proof.Machine
end

section
/-! SUPPORT. What each move of the machine does to RESULT, STATUS, DATA, CTRL.EN and a pending phase: one lemma for each
fact the statements about a step need. -/

namespace Sys2Proof.Machine

variable {s t : State} {i c : Instr} {p : Phase}

/-! ### What an engine move changes -/

/-- In a hold whose phase has not completed the engine stays (20_memory.md R62). -/
theorem EngineMove.eq_of_awaiting (m : EngineMove s i t) (h : s.stage = .awaiting) : t = s := by
  cases m with
  | held i _ => rfl
  | _ => simp_all -- every other move starts from another place

/-- RESULT is written by Finish only, which leaves the engine idle (60_exceptions.md R203). -/
theorem EngineMove.result_changed (m : EngineMove s i t) (hne : t.result ≠ s.result) :
    t.eng = .idle ∧ ∃ events, t.trace = s.trace ++ events ++ [Event.res t.result] := by
  have he : t.eng = .idle := by
    cases m with
    | held i h | launchStart h | launchStop h | launchAddress a d h | launchByte d h | launchReceive k h
    | nack i st h hv => exact absurd rfl hne
    | _ => rfl
  exact ⟨he, (m.finished he).resolve_left fun e => hne (e ▸ rfl)⟩

/-- PS is 0 already where BEGIN writes it (10_state.md R22). -/
theorem statusWithPrescaler1_eq {st : Byte} (h : st &&& 0x07 = 0) : statusWithPrescaler1 st = st := by
  have kept : ∀ x : Byte, x &&& 0x07 = 0 → statusWithPrescaler1 x = x := by decide
  exact kept st h

/-- No engine move changes STATUS: BEGIN's write of PS finds it 0 (10_state.md R22). -/
theorem EngineMove.status_eq (m : EngineMove s i t) (k : s.Inv) : t.status = s.status := by
  cases m with
  | beginCmd h => exact statusWithPrescaler1_eq k.statusLow
  | _ => rfl

/-- An engine move that changes DATA is the first step of a send (42_data_phase.md R143). -/
theorem EngineMove.data_changed (m : EngineMove s i t) (hi : s.eng.command = some i) (hne : t.data ≠ s.data) :
    (∃ a d, s.eng = .issued (.sendAddress a d) ∧ t.data = slaByte a d) ∨
      ∃ b, s.eng = .issued (.sendByte b) ∧ t.data = b := by
  cases m with
  | launchAddress a d h => exact .inl ⟨a, d, State.eng_of_first hi h, rfl⟩
  | launchByte b h => exact .inr ⟨b, State.eng_of_first hi h, rfl⟩
  | _ => exact absurd rfl hne

/-- Only BEGIN is at its first statement while the block is disabled (60_exceptions.md R210). -/
theorem State.Inv.enabled_of_command (k : s.Inv) (hi : s.eng.command = some i) (hb : i ≠ .beginCmd) :
    s.enabled = true := by
  refine k.enabled_of (fun e => ?_) fun e => ?_ <;> rw [e] at hi
  · cases hi
  · exact hb (Option.some.inj hi).symm

/-- In a hold the block is enabled (60_exceptions.md R210). -/
theorem State.Inv.enabled_of_hold (k : s.Inv) (h : s.stage ≠ .first) : s.enabled = true := by
  refine k.enabled_of (fun e => h ?_) fun e => h (State.stage_issued e)
  rw [State.stage, e]

/-- After every engine move but END's the block is enabled (60_exceptions.md R210, R217). -/
theorem EngineMove.enabled (m : EngineMove s i t) (k : s.Inv) (hi : s.eng.command = some i) (hend : i ≠ .endCmd) :
    t.enabled = true := by
  cases m with
  | endCmd h => exact absurd rfl hend
  | beginCmd h => exact (ctrlEn_afterWrite _ _).trans ctrlEn_begin
  | launchStart h => exact (ctrlEn_afterWrite _ _).trans ctrlEn_start
  | launchReceive b h => exact (ctrlEn_afterWrite _ _).trans (ctrlEn_receive b)
  | launchAddress a d h | launchByte d h => exact (ctrlEn_afterWrite _ _).trans ctrlEn_send
  | launchStop h | nack i st h hv => exact (ctrlEn_afterWrite _ _).trans ctrlEn_stop
  | failed i st hm h hv | stopFailed st h hv | nackFailed i saved st h hv =>
    exact (ctrlEn_afterWrite _ _).trans ctrlEn_recover
  | setLowSpeed h | setHighSpeed h => exact k.enabled_of_command hi (by decide)
  | held i h | startDone st h hv | dataDone i st hd h hv | stopDone st h hv | nackDone i saved st h hv =>
    exact k.enabled_of_hold (by simp [h])

/-! ### A pending phase (20_memory.md R62) -/

/-- Where a phase pends the engine is in its hold (10_state.md R30, R32). -/
theorem State.Inv.inHold_of_pending (k : s.Inv) (hp : s.pend = some p) : s.eng.inHold = true := by
  have hk := k.engPend
  rw [hp] at hk
  cases he : s.eng with
  | idle | issued c => simp [he, engPendOk] at hk
  | wMain c | wStop c saved => rfl

/-- A hold whose phase pends is awaiting it. -/
theorem State.stage_of_pending (he : s.eng.inHold = true) (hp : s.pend = some p) : s.stage = .awaiting := by
  cases h : s.eng with
  | idle | issued c => rw [h] at he; cases he
  | wMain c => exact State.stage_wMain_pending h hp
  | wStop c saved => exact State.stage_wStop_pending h hp

theorem Eng.ne_idle_of_inHold {e : Eng} (h : e.inHold = true) : e ≠ .idle := by
  rintro rfl
  cases h

/-- What one step does to a pending phase: it stays with its hold, or it completes, or a reset ends both
(20_memory.md R62). -/
theorem step_pending (k : s.Inv) (hp : s.pend = some p) (h : step s = .next t) :
    (t.pend = some p ∧ t.eng = s.eng ∧ t.result = s.result) ∨
      (t.pend = none ∧ t.eng = s.eng ∧ ∃ o : PhaseOutcome,
        t.trace = s.trace ++ [Event.oc (statusOfCode o.code) (if p.isRx then some o.byte else none)]) ∨
      (t.pend = none ∧ t.eng = .idle ∧ t.trace = s.trace ++ [Event.rst]) := by
  have hh := k.inHold_of_pending hp
  cases step_move h with
  | outside e | argWrite v e | faulted f e => exact .inl ⟨e.pend.trans hp, e.eng, e.result⟩
  | reset u e ht => exact .inr (.inr ⟨ht ▸ rfl, ht ▸ rfl, ht ▸ e.resetAct_trace⟩)
  | completion u q o e hq ha ht =>
    obtain rfl : q = p := Option.some.inj (hq.symm.trans (e.pend.trans hp))
    exact .inr (.inl ⟨ht ▸ rfl, ht ▸ e.eng, o, by rw [ht, State.completePhase_trace, e.trace]⟩)
  | accepted op c hc e => exact absurd (issueCheck_accept hc).1 (Eng.ne_idle_of_inHold hh)
  | engine u i e hi he =>
    obtain rfl : t = u := (exec_move he).eq_of_awaiting (e.stage.trans (State.stage_of_pending hh hp))
    exact .inl ⟨e.pend.trans hp, e.eng, e.result⟩

/-! ### What a step changes -/

/-- RESULT changes only at Finish or at reset (10_state.md R27). -/
theorem step_result (h : step s = .next t) (hne : t.result ≠ s.result) :
    (t.eng = .idle ∧ ∃ events, t.trace = s.trace ++ events ++ [Event.res t.result]) ∨
      (t.trace = s.trace ++ [Event.rst] ∧ t.result = 0x00) := by
  cases step_move h with
  | outside e | argWrite v e | accepted op c hc e | faulted f e => exact absurd e.result hne
  | completion u p o e hp ha ht => exact absurd (ht ▸ e.result) hne
  | reset u e ht => exact .inr ⟨ht ▸ e.resetAct_trace, ht ▸ rfl⟩
  | engine u i e hi he =>
    have hres := (exec_move he).result_changed (e.result ▸ hne)
    rw [e.trace] at hres
    exact .inl hres

/-- A completion makes STATUS the masked status it reports, since the bits below CODE are 0 (20_memory.md R60). -/
theorem statusWithCode_eq {st : Byte} (h : st &&& 0x07 = 0) (code : StatusCode) :
    statusWithCode st code = statusOfCode code := by
  rw [statusWithCode, h]
  exact BitVec.or_zero

/-- STATUS changes only at a completion, which gives the whole register, or at reset (10_state.md R22). -/
theorem step_status (k : s.Inv) (h : step s = .next t) (hne : t.status ≠ s.status) :
    (∃ b, t.trace = s.trace ++ [Event.oc t.status b]) ∨ (t.trace = s.trace ++ [Event.rst] ∧ t.status = 0xF8) := by
  cases step_move h with
  | outside e | argWrite v e | accepted op c hc e | faulted f e => exact absurd e.status hne
  | reset u e ht => exact .inr ⟨ht ▸ e.resetAct_trace, ht ▸ rfl⟩
  | engine u i e hi he => exact absurd (((exec_move he).status_eq (k.congr e)).trans e.status) hne
  | completion u p o e hp ha ht =>
    refine .inl ⟨if p.isRx then some o.byte else none, ?_⟩
    rw [ht, State.completePhase_trace, State.completePhase_status, statusWithCode_eq (k.congr e).statusLow, e.trace]

theorem Phase.isRx_iff (p : Phase) : p.isRx = true ↔ ∃ k, p = .rx k := by
  cases p <;> simp [Phase.isRx]

/-- DATA changes only at the first step of a send, at the completion of an RX phase, or at reset (42_data_phase.md
R143). -/
theorem step_data (h : step s = .next t) (hne : t.data ≠ s.data) :
    (∃ a d, s.eng = .issued (.sendAddress a d) ∧ t.data = slaByte a d) ∨
      (∃ b, s.eng = .issued (.sendByte b) ∧ t.data = b) ∨
      (∃ k st, s.pend = some (.rx k) ∧ t.pend = none ∧ t.trace = s.trace ++ [Event.oc st (some t.data)]) ∨
      (t.trace = s.trace ++ [Event.rst] ∧ t.data = 0xFF) := by
  cases step_move h with
  | outside e | argWrite v e | accepted op c hc e | faulted f e => exact absurd e.data hne
  | reset u e ht => exact .inr (.inr (.inr ⟨ht ▸ e.resetAct_trace, ht ▸ rfl⟩))
  | engine u i e hi he =>
    have hdata := (exec_move he).data_changed hi (e.data ▸ hne)
    rw [e.eng] at hdata
    exact hdata.imp_right .inl
  | completion u p o e hp ha ht =>
    by_cases hrx : p.isRx = true
    · obtain ⟨k, rfl⟩ := p.isRx_iff.mp hrx
      exact .inr (.inr (.inl ⟨k, _, e.pend ▸ hp, ht ▸ rfl, by rw [ht, State.completePhase_trace, e.trace]; rfl⟩))
    · have hkept : t.data = u.data := by rw [ht, State.completePhase_data, if_neg hrx]
      exact absurd (hkept.trans e.data) hne

/-- BEGIN leaves the disabled state, and END and reset enter it; every other step keeps CTRL.EN (60_exceptions.md
R217). -/
theorem step_enabled (k : s.Inv) (h : step s = .next t) :
    t.enabled = s.enabled ∨ (t.enabled = true ∧ s.eng = .issued .beginCmd) ∨
      (t.enabled = false ∧ (s.eng = .issued .endCmd ∨ t.trace = s.trace ++ [Event.rst])) := by
  cases step_move h with
  | outside e | argWrite v e | accepted op c hc e | faulted f e => exact .inl e.enabled
  | completion u p o e hp ha ht => exact .inl (ht ▸ (ctrlEn_afterCompletion u.ctrl).trans e.enabled)
  | reset u e ht => exact .inr (.inr ⟨ht ▸ ctrlEn_off, .inr (ht ▸ e.resetAct_trace)⟩)
  | engine u i e hi he =>
    have m := exec_move he
    by_cases hend : i = .endCmd
    · subst hend
      obtain ⟨hs, rfl⟩ := State.configStep_next he
      exact .inr (.inr ⟨ctrlEn_afterWrite u.ctrl ctrlOff, .inl (e.eng ▸ State.eng_of_first hi hs)⟩)
    · have ht := m.enabled (k.congr e) hi hend
      by_cases hs : s.enabled = true
      · exact .inl (ht.trans hs.symm)
      · obtain ⟨-, -, -, hidle | hbegin⟩ := k.disabledCleared (Bool.not_eq_true _ ▸ hs)
        · rw [e.eng, hidle] at hi
          cases hi
        · exact .inr (.inl ⟨ht, hbegin⟩)

end Sys2Proof.Machine
end

section
/-! The statements about what every step keeps and about what a step changes (10_state.md, 20_memory.md,
42_data_phase.md, 60_exceptions.md). -/

namespace Sys2Proof.Machine

/-- Settles O45: each kind of move keeps the invariant (`State.Inv.step`). -/
theorem everyStepKeepsTheInvariant : Obligations.EveryStepKeepsTheInvariant := fun _ _ => State.Inv.step

/-- Settles O44: the start of a run has the registers that a reset gives, and its trace is empty. -/
theorem startOfRunMeetsTheInvariant : Obligations.StartOfRunMeetsTheInvariant := by
  have k := State.Inv.resetAct State.reset
  exact ⟨⟨k.ctrlReserved, k.statusLow, k.disabledCleared, k.engPend, k.holdCtrl, k.stoPending, k.dataOnBus, k.dataOpen,
    k.reconfigClosed, k.resultForm, k.failedClosed, k.bitrateLegal, k.bitrateSelected, k.quiescentFault⟩, rfl⟩

/-- Settles O9: the values of the first state. -/
theorem startOfRunHasTheResetValues : Obligations.StartOfRunHasTheResetValues :=
  ⟨rfl, rfl, rfl, rfl, rfl, rfl, State.engstat_idle_low rfl rfl, rfl, rfl, rfl, rfl, rfl, rfl, rfl⟩

/-- Settles O25: a pending phase stays with its hold, in which BUSY is 1, or it completes, or a reset ends both. -/
theorem holdsEndOnlyByCompletionOrReset : Obligations.HoldsEndOnlyByCompletionOrReset := by
  intro s t p k hp h
  refine (step_pending k hp h).imp_left fun ⟨htp, hte, htr⟩ => ⟨htp, hte, ?_, htr⟩
  rw [State.engstat_busy_set, hte]
  exact Eng.ne_idle_of_inHold (k.inHold_of_pending hp)

/-- Settles O51: of the moves of a step only a Finish and reset write RESULT. -/
theorem resultChangesOnlyAtFinish : Obligations.ResultChangesOnlyAtFinish :=
  ⟨fun _ _ => step_result, fun _ _ => rfl, rfl⟩

/-- Settles O52: a completion gives the whole of STATUS, and the invariant, which the step keeps, its low bits. -/
theorem statusChangesOnlyAtCompletion : Obligations.StatusChangesOnlyAtCompletion :=
  fun _ _ k h hne => ⟨(k.step h).statusLow, step_status k h hne⟩

/-- Settles O53: of the moves of a step only a send's first, an RX completion and reset write DATA. -/
theorem dataStaysUntilTheNextTransfer : Obligations.DataStaysUntilTheNextTransfer := fun _ _ => step_data

/-- Settles O55: CTRL.EN is 1 after every engine move but END's, and what is in flight in a disabled block is BEGIN. -/
theorem onlyBeginLeavesTheDisabledState : Obligations.OnlyBeginLeavesTheDisabledState := by
  refine ⟨fun s t k h hs ht => ?_, fun s t k h hs ht => ?_⟩
  · rcases step_enabled k h with e | ⟨-, hbegin⟩ | ⟨e, -⟩
    · exact absurd (hs.symm.trans (e.symm.trans ht)) Bool.false_ne_true
    · exact hbegin
    · exact absurd (e.symm.trans ht) Bool.false_ne_true
  · rcases step_enabled k h with e | ⟨e, -⟩ | ⟨-, hend⟩
    · exact absurd (ht.symm.trans (e.trans hs)) Bool.false_ne_true
    · exact absurd (ht.symm.trans e) Bool.false_ne_true
    · exact hend

end Sys2Proof.Machine
end

section
/-! SUPPORT. The eager order of moves and a machine that hangs, the host accesses that reach no register, and what
a completion writes (20_memory.md R50 to R63). -/

namespace Sys2Proof.Machine

variable {s : State} {c : Instr} {p : Phase}

/-! ### The eager order (log 7) -/

/-- With no move listed and an engine step enabled, the engine moves. -/
theorem step_eagerEngine (hq : s.quiescent = false) (ht : s.turns = []) (hr : s.engineReady = true)
    (hc : s.eng.command = some c) : step s = exec c s.nextTick := by
  have hr' : s.nextTick.engineReady = true := hr
  have hc' : s.nextTick.eng.command = some c := hc
  rw [step_eager ht, State.eagerTurn, if_pos hr', takeTurn_agent (by exact hq), State.agentTurn, State.engineTurn, hc']

/-- With no move listed, neither the engine nor the environment ready, the host's program moves. -/
theorem step_eagerProgram (hq : s.quiescent = false) (ht : s.turns = []) (hr : s.engineReady = false)
    (hp : ∀ p, s.pend = some p → s.nextTick.policyOutcome p = none) : step s = .next s.nextTick.programStep := by
  have hr' : ¬s.nextTick.engineReady = true := by
    rw [show s.nextTick.engineReady = s.engineReady from rfl, hr]
    exact Bool.false_ne_true
  have hturn : s.nextTick.eagerTurn = .program := by
    rw [State.eagerTurn, if_neg hr', State.nextTick_pend]
    cases h : s.pend with
    | none => rfl
    | some p => simp only [hp p h]
  rw [step_eager ht, hturn, takeTurn_agent (by exact hq), State.agentTurn]

/-- The engine has no step while its phase pends (00_scope.md R9). -/
theorem State.engineReady_pending (he : s.eng.inHold = true) (hp : s.pend = some p) : s.engineReady = false := by
  cases h : s.eng with
  | idle | issued c => rw [h] at he; cases he
  | wMain c | wStop c saved => simp [State.engineReady, h, hp]

theorem State.busy_of_ne_idle (h : s.eng ≠ .idle) : s.busy = true := decide_eq_true h

/-- The poll goes on while BUSY reads 1 (43_composite.md R160). -/
theorem State.programStep_polling (hs : s.host.stage = .poll) (he : s.eng ≠ .idle) : s.programStep = s := by
  simp [State.programStep, hs, State.hostPoll, State.busy_of_ne_idle he]

/-- The machine hangs: the engine holds on `p`, the script of outcomes is used up, and the host polls. -/
structure State.HangsOn (s : State) (p : Phase) : Prop where
  eager : s.turns = []
  noAnswer : s.env = .script []
  live : s.quiescent = false
  pending : s.pend = some p
  held : s.eng.inHold = true
  polling : s.host.stage = .poll

theorem State.HangsOn.nextTick (h : s.HangsOn p) : s.nextTick.HangsOn p :=
  ⟨h.eager, h.noAnswer, h.live, h.pending, h.held, h.polling⟩

/-- One step of a hanging machine only counts. -/
theorem State.HangsOn.step (h : s.HangsOn p) : step s = .next s.nextTick := by
  have hnone : ∀ q, s.pend = some q → s.nextTick.policyOutcome q = none := fun q _ => by
    simp [State.policyOutcome, h.noAnswer]
  rw [step_eagerProgram h.live h.eager (State.engineReady_pending h.held h.pending) hnone,
    State.programStep_polling h.nextTick.polling (Eng.ne_idle_of_inHold h.nextTick.held)]

/-- Any number of steps of a hanging machine only counts. -/
theorem State.HangsOn.run (k : Nat) : ∀ {s : State}, s.HangsOn p →
    ∃ n, Sys2Proof.core.run k s = .next { s with tick := n } := by
  induction k with
  | zero => exact fun {s} _ => ⟨s.tick, rfl⟩
  | succ k ih =>
    intro s h
    obtain ⟨n, e⟩ := ih h.nextTick
    exact ⟨n, (core_run_next h.step).trans e⟩

/-! ### The window (20_memory.md R50 to R52) -/

theorem exists_reg_of_offset {off : Nat} (h : off < 8) : ∃ r, off = regOffset r := by
  have all : ∀ off < 8, ∃ r ∈ [Reg.ctrl, .status, .data, .bitrate, .arg, .cmd, .result, .engstat],
      off = regOffset r := by decide
  obtain ⟨r, -, e⟩ := all off h
  exact ⟨r, e⟩

/-- Every register but ARG and CMD is read-only to the host (20_memory.md R52). -/
theorem State.hostWrite_readOnly (s : State) {r : Reg} (ha : r ≠ .arg) (hc : r ≠ .cmd) (v : Byte) :
    s.hostWrite r v = s.raiseFault .hostAccess := by
  cases r with
  | arg => exact absurd rfl ha
  | cmd => exact absurd rfl hc
  | _ => rfl

theorem touchesWindow_iff (base : Nat) (a : Access) :
    touchesWindow base a = true ↔ a.addr < base + 8 ∧ base < a.addr + a.width ∧ a.width ≠ 0 := by
  simp [touchesWindow, and_assoc]

/-- An access of more than one byte that touches the window faults (20_memory.md R51). -/
theorem State.hostAccess_wide (s : State) {a : Access} (ht : touchesWindow s.params.base a = true)
    (hw : a.width ≠ 1) : s.hostAccess a = s.raiseFault .hostAccess := by
  simp [State.hostAccess, ht, hw]

/-- An access that does not touch the window changes nothing (20_memory.md R50; log 19). -/
theorem State.hostAccess_outside (s : State) {a : Access} (ht : touchesWindow s.params.base a = false) :
    s.hostAccess a = s := by
  simp [State.hostAccess, ht]

/-! ### Completion (20_memory.md R60) -/

theorem statusWithCode_code (st : Byte) (code : StatusCode) : (statusWithCode st code).extractLsb' 3 5 = code := by
  have low : ∀ x : Byte, (x &&& 0x07).extractLsb' 3 5 = 0 := by decide
  have high : (statusOfCode code).extractLsb' 3 5 = code := BitVec.extractLsb'_append_eq_left
  rw [statusWithCode, BitVec.extractLsb'_or, low, high]
  exact BitVec.or_zero

theorem statusWithCode_lowBits (st : Byte) (code : StatusCode) :
    (statusWithCode st code).extractLsb' 0 3 = st.extractLsb' 0 3 := by
  have low : ∀ x : Byte, (x &&& 0x07).extractLsb' 0 3 = x.extractLsb' 0 3 := by decide
  have high : (statusOfCode code).extractLsb' 0 3 = 0#3 := BitVec.extractLsb'_append_eq_right
  rw [statusWithCode, BitVec.extractLsb'_or, low, high]
  exact BitVec.zero_or

/-- A completion keeps every bit of CTRL but INT and STO. -/
theorem ctrlAfterCompletion_others (c : Byte) : ctrlAfterCompletion c &&& 0x6F = c &&& 0x6F := by
  have kept : ∀ x : Byte, ctrlAfterCompletion x &&& 0x6F = x &&& 0x6F := by decide
  exact kept c

theorem State.completeWith_allowed {o : PhaseOutcome} (hp : s.pend = some p)
    (ha : drawAllows s.params.statusDraw p o.code = true) : s.completeWith o = s.completePhase p o := by
  simp [State.completeWith, hp, ha]

/-- An outcome that the draw does not give completes nothing (log 17). -/
theorem State.completeWith_refused {o : PhaseOutcome} (hp : s.pend = some p)
    (ha : drawAllows s.params.statusDraw p o.code = false) : s.completeWith o = s := by
  simp [State.completeWith, hp, ha]

theorem drawAllows_protocol_iff (p : Phase) (code : StatusCode) :
    drawAllows .protocol p code = true ↔ code ++ 0#3 ∈ protocolStatuses p := List.contains_iff_mem

end Sys2Proof.Machine
end

section
/-! The statements about turns, host accesses, completions and the environment (10_state.md, 20_memory.md). -/

namespace Sys2Proof.Machine

/-- Settles O16: a turn other than reset is not taken in a quiescent state. -/
theorem quiescentStatesStopUntilReset : Obligations.QuiescentStatesStopUntilReset := by
  intro s k rest hq h hk
  have hr : k.isReset = false := by
    cases k with
    | reset => exact absurd rfl hk
    | _ => rfl
  rw [step_turn h, State.takeTurn, hr]
  exact if_pos (by simpa using hq)

/-- Settles O18: the engine's turn, listed, eager or placed, is `exec` of the command in flight. -/
theorem engineStepRunsTheLatchedCommand : Obligations.EngineStepRunsTheLatchedCommand := by
  refine ⟨fun s rest i hq hi h => step_engine hq h hi, fun s i hq hi hr h => step_eagerEngine hq h hr hi,
    fun s nbits w i hw => ?_⟩
  have hplace : s.withFetchWord nbits w =
      { s with eng := .issued i, turns := .engine :: s.turns, quiescent := false } := by
    simp only [State.withFetchWord, State.placeWord, hw]
  rw [hplace]
  exact step_engine rfl rfl rfl

/-- Settles O19: the accepted write of CMD latches the command, and the engine's turn then runs it. -/
theorem issuedWordIsTheCommandRun : Obligations.IssuedWordIsTheCommandRun := by
  intro s rest op i hq _ hc h
  exact ⟨_, step_issue hq h hc, rfl, step_engine hq rfl rfl⟩

/-- Settles O12: a byte write at an offset is the write of the register there; the issue checks decide at CMD. -/
theorem hostWritesReachArgAndCmdOnly : Obligations.HostWritesReachArgAndCmdOnly := by
  intro s rest off v hq h
  refine ⟨?_, ?_, fun hoff harg hcmd => ?_⟩
  · rintro rfl
    rw [step_liveTurn hq h]
    exact congrArg Host.Outcome.next ((s.setTurns rest).hostAccess_write .arg v)
  · rintro rfl
    exact ⟨fun c => step_issue hq h, fun r => step_issueRejected hq h⟩
  · obtain ⟨r, rfl⟩ := exists_reg_of_offset hoff
    rw [step_liveTurn hq h]
    refine congrArg Host.Outcome.next (((s.setTurns rest).hostAccess_write r v).trans ?_)
    exact State.hostWrite_readOnly _ (fun e => harg (congrArg regOffset e)) (fun e => hcmd (congrArg regOffset e)) v

/-- Settles O13: the window is touched just where the access overlaps it. -/
theorem wideAccessesFault : Obligations.WideAccessesFault := by
  refine ⟨fun s rest a hq h h0 h1 hlo hhi => ?_, fun s rest a hq h hout => ?_⟩ <;> rw [step_liveTurn hq h]
  · exact congrArg Host.Outcome.next
      ((s.setTurns rest).hostAccess_wide ((touchesWindow_iff _ _).mpr ⟨hlo, hhi, h0⟩) h1)
  · refine congrArg Host.Outcome.next ((s.setTurns rest).hostAccess_outside ?_)
    rw [← Bool.not_eq_true, touchesWindow_iff]
    rintro ⟨hlo, hhi, -⟩
    exact hout.elim (Nat.not_le.mpr hlo) (Nat.not_le.mpr hhi)

/-- Settles O22: an allowed outcome completes the phase, which writes CODE, INT, STO and, for RX only, DATA; by the
invariant DATA holds the byte of an ADDR or TX phase. -/
theorem phaseCompletionRule : Obligations.PhaseCompletionRule := by
  refine ⟨fun s rest p o hq h hp ha => ?_, fun s rest o hq h hp => ?_, fun s b o k => ⟨fun hp => ?_, fun hp => ?_⟩⟩
  · have hstep : step s = .next ((s.setTurns rest).completePhase p o) := by
      rw [step_liveTurn hq h]
      exact congrArg Host.Outcome.next (State.completeWith_allowed hp ha)
    refine ⟨_, hstep, rfl, statusWithCode_code _ _, statusWithCode_lowBits _ _, State.completePhase_maskedStatus _ _ _,
      ctrlInt_afterCompletion _, ctrlSto_afterCompletion _, ctrlAfterCompletion_others _, ?_, fun hrx => ?_⟩
    · rintro k rfl
      exact ⟨rfl, rfl⟩
    · cases p with
      | rx k => exact absurd rfl (hrx k)
      | _ => exact ⟨rfl, rfl⟩
  · have hp' : (s.setTurns rest).pend = none := hp
    rw [step_liveTurn hq h, State.agentTurn, State.completeWith, hp']
    rfl
  · exact k.dataOnBus b (.inl hp)
  · exact k.dataOnBus b (.inr hp)

/-- Settles O23: under PROTOCOL the draw is the phase's row of the table. -/
theorem environmentDrawsFromItsSet : Obligations.EnvironmentDrawsFromItsSet := by
  refine ⟨fun _ _ => rfl, fun code => ?_, fun s p o => State.completeWith_refused⟩
  simp only [drawAllows_protocol_iff]
  refine ⟨.rfl, fun b hb => ?_, fun b hb => ?_, fun b => .rfl, .rfl, .rfl, .rfl⟩
  · rw [protocolStatuses, if_pos hb]
    rfl
  · rw [protocolStatuses, if_neg (by simp [hb])]
    rfl

/-- Settles O26: a hanging machine still hangs after a step, which only counts. -/
theorem unansweredPhaseHangsForever : Obligations.UnansweredPhaseHangsForever := by
  intro s p k ht he hq hp hh hs
  obtain ⟨n, hrun⟩ := State.HangsOn.run k ⟨ht, he, hq, hp, hh, hs⟩
  exact ⟨_, hrun, hp, rfl, rfl, rfl, rfl, (State.engstat_busy_set _).mpr (Eng.ne_idle_of_inHold hh), rfl⟩

end Sys2Proof.Machine
end

section
/-! SUPPORT. The rows of the classification by the named conditions, and the issue checks after a failure
(60_exceptions.md R201, R207). -/

namespace Sys2Proof.Machine

variable {s : State} {c : Instr} {op : Byte}

/-! ### The named conditions (60_exceptions.md R201) -/

/-- A row of the classification in terms of the named conditions: SUCCESS on those of `success`, NACK on those of
`nack`, FAIL elsewhere. -/
def RowByCondition (v : Byte → Verdict) (success nack : List Condition) : Prop :=
  ∀ code : StatusCode,
    (conditionOf (code ++ 0#3) ∈ success → v (code ++ 0#3) = .success) ∧
    (conditionOf (code ++ 0#3) ∈ nack → v (code ++ 0#3) = .nack) ∧
    (conditionOf (code ++ 0#3) ∉ success → conditionOf (code ++ 0#3) ∉ nack → v (code ++ 0#3) = .fail)

theorem verdictStart_byCondition : RowByCondition verdictStart [.start, .repStart] [] := by
  unfold RowByCondition; decide

theorem verdictStop_byCondition : RowByCondition verdictStop [.stopCompleted] [] := by
  unfold RowByCondition; decide

theorem verdictSendAddress_byCondition :
    RowByCondition verdictSendAddress [.mtSlaAck, .mrSlaAck] [.mtSlaNack, .mrSlaNack] := by
  unfold RowByCondition; decide

theorem verdictSendByte_byCondition : RowByCondition verdictSendByte [.mtDataAck] [.mtDataNack] := by
  unfold RowByCondition; decide

theorem verdictReceiveByte_byCondition : RowByCondition verdictReceiveByte [.mrDataAck, .mrDataNack] [] := by
  unfold RowByCondition; decide

/-- A command's verdict is each of the three exactly on the conditions of its row (60_exceptions.md R201). -/
theorem RowByCondition.classify_iff {v : Byte → Verdict} {success nack : List Condition}
    (row : RowByCondition v success nack) (hc : ∀ st, classify c st = some (v st)) (code : StatusCode) :
    (classify c (code ++ 0#3) = some .success ↔ conditionOf (code ++ 0#3) ∈ success) ∧
      (classify c (code ++ 0#3) = some .nack ↔ conditionOf (code ++ 0#3) ∈ nack) ∧
      (classify c (code ++ 0#3) = some .fail ↔
        conditionOf (code ++ 0#3) ∉ success ∧ conditionOf (code ++ 0#3) ∉ nack) := by
  obtain ⟨hsuccess, hnack, hfail⟩ := row code
  exact classify_exactly (hc _) hsuccess hnack hfail

/-! ### After a failure (60_exceptions.md R207) -/

/-- In an idle, enabled block with no open transaction a data-phase command is refused and every other is accepted
(60_exceptions.md R210). -/
theorem issueCheck_closed (hi : s.eng = .idle) (he : s.enabled = true) (ho : s.txnOpen = false)
    (hd : decode (commandWord op s.arg) = .command c) :
    issueCheck s op = if isDataPhase c then .reject .noTxn else .accept c := by
  simp [issueCheck_admitted hi hd (.inr he), ho]

end Sys2Proof.Machine
end

section
/-! The statements about the named conditions and failed commands (60_exceptions.md). -/

namespace Sys2Proof.Machine

/-- Settles O28: the values and the failure results are read off at each of the 32 codes; a command's verdict goes by
its row. -/
theorem namedConditionsHaveTheirCategory : Obligations.NamedConditionsHaveTheirCategory := by
  refine ⟨by decide, ?_, by decide⟩
  rintro i code success nack (⟨rfl, rfl, rfl⟩ | ⟨rfl, rfl, rfl⟩ | ⟨⟨a, d, rfl⟩, rfl, rfl⟩ | ⟨⟨b, rfl⟩, rfl, rfl⟩ |
    ⟨⟨k, rfl⟩, rfl, rfl⟩)
  · exact verdictStart_byCondition.classify_iff (c := .start) (fun _ => rfl) code
  · exact verdictStop_byCondition.classify_iff (c := .stop) (fun _ => rfl) code
  · exact verdictSendAddress_byCondition.classify_iff (c := .sendAddress a d) (fun _ => rfl) code
  · exact verdictSendByte_byCondition.classify_iff (c := .sendByte b) (fun _ => rfl) code
  · exact verdictReceiveByte_byCondition.classify_iff (c := .receiveByte k) (fun _ => rfl) code

/-- Settles O29: only 0x00 is encoded otherwise, and a masked status is a multiple of 8. -/
theorem failureResultsAreNeverZero : Obligations.FailureResultsAreNeverZero :=
  ⟨rfl, fun _ hs => if_neg hs, enc_ne_zero, by decide⟩

/-- Settles O32: the invariant closes the transaction of a non-zero result; END, the one step that disables, has result
0x00. -/
theorem failedCommandsLeaveAnEnabledClosedBlock : Obligations.FailedCommandsLeaveAnEnabledClosedBlock := by
  intro i s t k hi h ht hr
  have m := exec_move h
  have hclosed := (k.engine hi m).failedClosed hr
  have hend : i ≠ .endCmd := by
    rintro rfl
    obtain ⟨-, rfl⟩ := State.configStep_next h
    exact hr rfl
  have hen := m.enabled k hi hend
  exact ⟨hclosed, hen, fun op c => issueCheck_closed ht hen hclosed⟩

end Sys2Proof.Machine
end

section
/-! SUPPORT. The host's step from each place of its program (43_composite.md R160). -/

namespace Sys2Proof.Machine

variable {s : State} {c : Instr} {op : Byte}

theorem State.programStep_fetchCommand (hs : s.host.stage = .fetch)
    (hl : s.host.lines[s.host.hpc]? = some (.command c)) :
    s.programStep = (s.setArg c.argByte).hostGoto (.deliver c.op) := by
  simp only [State.programStep, hs, State.hostFetch, hl, State.hostWrite]

theorem State.programStep_fetchRead {r : Reg} (hs : s.host.stage = .fetch)
    (hl : s.host.lines[s.host.hpc]? = some (.read r)) :
    s.programStep = (s.noteRead (s.hostRead r)).hostAdvance s.host.last := by
  simp only [State.programStep, hs, State.hostFetch, hl]

theorem State.programStep_fetchEnd (hs : s.host.stage = .fetch) (hl : s.host.lines[s.host.hpc]? = none) :
    s.programStep = s.hostGoto (.returned s.host.last) := by
  simp only [State.programStep, hs, State.hostFetch, hl]

theorem State.programStep_accepted (hs : s.host.stage = .deliver op) (hc : issueCheck s op = .accept c) :
    s.programStep = (s.accept op c).hostGoto .poll := by
  simp only [State.programStep, hs, State.hostWrite, State.issue, hc]

theorem State.programStep_rejected {r : FaultReason} (hs : s.host.stage = .deliver op)
    (hc : issueCheck s op = .reject r) : s.programStep = (s.raiseFault r).hostGoto .poll := by
  simp only [State.programStep, hs, State.hostWrite, State.issue, hc]

theorem State.programStep_idle (hs : s.host.stage = .poll) (he : s.eng = .idle) :
    s.programStep = s.hostGoto .result := by
  simp [State.programStep, hs, State.hostPoll, State.busy, he]

/-- A non-zero result is returned at once. -/
theorem State.programStep_failed (hs : s.host.stage = .result) (hr : s.result ≠ 0x00) :
    s.programStep = s.hostGoto (.returned s.result) := by
  simp only [State.programStep, hs, State.hostResult]
  exact if_neg hr

theorem State.programStep_succeeded (hs : s.host.stage = .result) (hr : s.result = 0x00) :
    s.programStep = s.hostAdvance 0x00 := by
  simp only [State.programStep, hs, State.hostResult, State.hostRead, hr, if_true]

end Sys2Proof.Machine
end

section
/-! The statement about the program loop (43_composite.md R160). -/

namespace Sys2Proof.Machine

/-- Settles O56: the host's step from each place of the program. -/
theorem runProgramLoop : Obligations.RunProgramLoop :=
  ⟨fun _ _ _ => step_liveTurn, fun _ _ => State.programStep_fetchCommand,
    fun _ _ _ => State.programStep_accepted, fun _ _ _ => State.programStep_rejected,
    fun _ => State.programStep_polling, fun _ => State.programStep_idle, fun _ => State.programStep_failed,
    fun _ => State.programStep_succeeded, fun _ => State.programStep_fetchEnd, fun _ _ => State.programStep_fetchRead⟩

end Sys2Proof.Machine
end

section
/-! SUPPORT. A host program's run under the eager order of moves: where it stands, and what each move of the engine, of
the environment and of the host leads to (43_composite.md R160; log 7). -/

namespace Sys2Proof.Machine

variable {s t : State} {c : Instr} {p : Phase} {o : PhaseOutcome} {env : Env}

/-! ### Steps in a row -/

/-- One step leads from `s` to `t`. -/
def StepsTo (s t : State) : Prop := step s = .next t

/-- Steps in a row are a run of some length. -/
theorem exists_run_of_steps (h : Relation.ReflTransGen StepsTo s t) :
    ∃ k, Sys2Proof.core.run k s = .next t := by
  induction h using Relation.ReflTransGen.head_induction_on with
  | refl => exact ⟨0, rfl⟩
  | head h _ ih =>
    obtain ⟨k, hk⟩ := ih
    exact ⟨k + 1, (core_run_next h).trans hk⟩

/-! ### Where a program's run stands -/

/-- What a program's run depends on and what is said of it: the engine and its phase, the host's place with the lines
still to do, the transaction, the environment, CTRL, the masked status, RESULT, and the phases launched so far. -/
structure RunPoint where
  eng : Eng
  pend : Option Phase
  stage : HostStage
  todo : List Line
  hpc : Nat
  txnOpen : Bool
  env : Env
  draw : StatusDraw
  ctrl : Byte
  status : Byte
  result : Byte
  phases : List Phase

/-- Where the run stands in a state. -/
def State.point (s : State) : RunPoint where
  eng := s.eng
  pend := s.pend
  stage := s.host.stage
  todo := s.host.lines.drop s.host.hpc
  hpc := s.host.hpc
  txnOpen := s.txnOpen
  env := s.env
  draw := s.params.statusDraw
  ctrl := s.ctrl
  status := s.maskedStatus
  result := s.result
  phases := phasesOf s.trace

/-- A live state with no fault and no move listed, in which the lines so far have returned 0x00. -/
structure State.Eager (s : State) : Prop where
  turns : s.turns = []
  live : s.quiescent = false
  noFault : s.fault = none
  last : s.host.last = 0x00

theorem State.Eager.nextTick (k : s.Eager) : s.nextTick.Eager := ⟨k.turns, k.live, k.noFault, k.last⟩

theorem State.Eager.setArg (k : s.Eager) (v : Byte) : (s.setArg v).Eager := ⟨k.turns, k.live, k.noFault, k.last⟩

theorem State.Eager.accept (k : s.Eager) (op : Byte) (c : Instr) : (s.accept op c).Eager :=
  ⟨k.turns, k.live, k.noFault, k.last⟩

theorem State.Eager.hostGoto (k : s.Eager) (g : HostStage) : (s.hostGoto g).Eager :=
  ⟨k.turns, k.live, k.noFault, k.last⟩

theorem State.Eager.hostAdvance (k : s.Eager) : (s.hostAdvance 0x00).Eager := ⟨k.turns, k.live, k.noFault, rfl⟩

theorem State.Eager.setEnv (k : s.Eager) (e : Env) : (s.setEnv e).Eager := ⟨k.turns, k.live, k.noFault, k.last⟩

theorem State.Eager.completePhase (k : s.Eager) (p : Phase) (o : PhaseOutcome) : (s.completePhase p o).Eager :=
  ⟨k.turns, k.live, k.noFault, k.last⟩

/-- Steps lead from every eager state that stands at `q` to an eager one that stands at `r`. -/
def RunPoint.Leads (q r : RunPoint) : Prop :=
  ∀ s : State, s.Eager → s.point = q →
    ∃ t, Relation.ReflTransGen StepsTo s t ∧ t.Eager ∧ t.point = r

theorem RunPoint.Leads.refl (q : RunPoint) : q.Leads q := fun s hs hq => ⟨s, .refl, hs, hq⟩

theorem RunPoint.Leads.trans {q r u : RunPoint} (h : q.Leads r) (k : r.Leads u) : q.Leads u := by
  intro s hs hq
  obtain ⟨t, hst, ht, hr⟩ := h s hs hq
  obtain ⟨v, htv, hv, hu⟩ := k t ht hr
  exact ⟨v, hst.trans htv, hv, hu⟩

/-- One step that every eager state standing at `q` takes. -/
theorem RunPoint.Leads.of_step {q r : RunPoint}
    (h : ∀ s : State, s.Eager → s.point = q → ∃ t, step s = .next t ∧ t.Eager ∧ t.point = r) : q.Leads r := by
  intro s hs hq
  obtain ⟨t, hst, ht, hr⟩ := h s hs hq
  exact ⟨t, .single hst, ht, hr⟩

theorem phasesOf_append (l m : List Event) : phasesOf (l ++ m) = phasesOf l ++ phasesOf m := by
  induction l with
  | nil => rfl
  | cons e l ih => cases e <;> simp [phasesOf, ih]

/-! ### The environment's answers (20_memory.md R61, R64) -/

/-- An outcome reports the masked status it is made from. -/
theorem statusOfCode_outcomeOf {st : Byte} (h : st &&& 0x07 = 0) (b : Byte) :
    statusOfCode (outcomeOf st b).code = st :=
  statusOfCode_codeOfStatus h

/-- The environment `env` answers the phase `p` with an allowed outcome `o`, whatever the draw counter, and goes on as
`env'`. -/
structure Env.Answers (env : Env) (p : Phase) (txnOpen : Bool) (draw : StatusDraw) (o : PhaseOutcome) (env' : Env) :
    Prop where
  policy (s : State) : s.env = env → s.txnOpen = txnOpen → s.policyOutcome p = some (o, env')
  allowed : drawAllows draw p o.code = true

/-- A script answers with its first outcome. -/
theorem Env.answers_script {txnOpen : Bool} {draw : StatusDraw} (rest : List PhaseOutcome)
    (ha : drawAllows draw p o.code = true) : (Env.script (o :: rest)).Answers p txnOpen draw o (.script rest) :=
  ⟨fun s he _ => by rw [State.policyOutcome, he], ha⟩

/-- The outcome of ACK_ENV's table is allowed under either draw. -/
theorem ackStatus_allowed (draw : StatusDraw) (p : Phase) (txnOpen : Bool) (b : Byte) :
    drawAllows draw p (outcomeOf (ackStatus p txnOpen) b).code = true := by
  have ha := ackOutcome_allowed draw p txnOpen [] 0
  rwa [ackOutcome_code] at ha

/-- A data byte may be refused under either draw (20_memory.md R63). -/
theorem byteNack_allowed (draw : StatusDraw) (b : Byte) :
    drawAllows draw (.tx b) (outcomeOf 0x30 0x00).code = true := by
  have hrow : (outcomeOf 0x30 0x00).code ++ 0#3 ∈ [0x28#8, 0x30, 0x38, 0x00] := by decide
  cases draw with
  | any => rfl
  | protocol => exact (drawAllows_protocol_iff _ _).mpr hrow

/-- ACK_ENV answers a phase that receives nothing with its table's status, and names no byte (20_memory.md R64). -/
theorem Env.answers_ack {txnOpen : Bool} (draw : StatusDraw) (rx : List Byte) (hrx : p.isRx = false) :
    (Env.ack rx).Answers p txnOpen draw (outcomeOf (ackStatus p txnOpen) 0x00) (.ack rx) :=
  ⟨fun s he ho => by simp only [State.policyOutcome, he, ackOutcome, hrx, ho], ackStatus_allowed ..⟩

/-! ### Engine steps -/

/-- The engine touches neither the host's run nor the model's own fields. -/
theorem EngineMove.eager {i : Instr} (m : EngineMove s i t) (k : s.Eager) : t.Eager := by
  cases m <;> exact ⟨k.turns, k.live, k.noFault, k.last⟩

theorem State.engineReady_of_command (hc : s.eng.command = some c) (hp : s.pend = none) : s.engineReady = true := by
  cases he : s.eng with
  | idle => rw [he] at hc; cases hc
  | issued c => rw [State.engineReady, he]
  | wMain c | wStop c saved => simp [State.engineReady, he, hp]

/-- An engine step of the command in flight, with no phase pending. -/
theorem leads_exec {q r : RunPoint} (hc : q.eng.command = some c) (hp : q.pend = none)
    (h : ∀ s : State, s.point = q → ∃ t, exec c s = .next t ∧ t.point = r) : q.Leads r := by
  refine .of_step ?_
  rintro s k rfl
  obtain ⟨t, ht, hr⟩ := h s.nextTick rfl
  have hstep := step_eagerEngine k.live k.turns (State.engineReady_of_command hc hp) hc
  exact ⟨t, hstep.trans ht, (exec_move ht).eager k.nextTick, hr⟩

/-- The first engine step of a command with a main phase launches that phase (20_memory.md R57). -/
theorem exec_mainLaunch (he : s.eng = .issued c) (hm : mainPhase c = some p) :
    ∃ t events, exec c s = .next t ∧ phasesOf events = [p] ∧
      t = { s with
        data := t.data, ctrl := pendingCtrl (.wMain c), pend := some p, eng := .wMain c
        trace := s.trace ++ events } := by
  cases c with
  | beginCmd | endCmd | setLowSpeed | setHighSpeed | stop => cases hm
  | start =>
    obtain rfl : Phase.start = p := Option.some.inj hm
    refine ⟨_, [.cw ctrlStart, .ph .start], exec_start_launch (State.stage_issued he), rfl, ?_⟩
    rw [State.launchHold_eq s ctrlEn_start, ctrlAfterWrite_start]
    rfl
  | sendAddress a d =>
    obtain rfl : Phase.addr (slaByte a d) = p := Option.some.inj hm
    exact ⟨_, _, (SendCommand.address a d).exec_launch he, rfl, rfl⟩
  | sendByte b =>
    obtain rfl : Phase.tx b = p := Option.some.inj hm
    exact ⟨_, _, (SendCommand.byte b).exec_launch he, rfl, rfl⟩
  | receiveByte k =>
    obtain rfl : Phase.rx k = p := Option.some.inj hm
    exact ⟨_, _, exec_receiveByte_launch he, rfl, rfl⟩

/-- A command with a main phase is START or a data-phase command. -/
theorem start_or_dataPhase (hm : mainPhase c = some p) : c = .start ∨ isDataPhase c = true := by
  cases c with
  | start => exact .inl rfl
  | sendAddress | sendByte | receiveByte => exact .inr rfl
  | beginCmd | endCmd | setLowSpeed | setHighSpeed | stop => cases hm

theorem leads_launch {q : RunPoint} (he : q.eng = .issued c) (hp : q.pend = none) (hm : mainPhase c = some p) :
    q.Leads { q with
      eng := .wMain c, pend := some p, ctrl := pendingCtrl (.wMain c), phases := q.phases ++ [p] } := by
  refine leads_exec (congrArg Eng.command he) hp ?_
  rintro s rfl
  obtain ⟨t, events, ht, hphases, e⟩ := exec_mainLaunch he hm
  refine ⟨t, ht, ?_⟩
  rw [e, ← hphases]
  simp only [State.point, phasesOf_append]
  rfl

/-- The engine step after an acknowledged main phase finishes with 0x00, in an open transaction (60_exceptions.md
R203). -/
theorem leads_success {q : RunPoint} (he : q.eng = .wMain c) (hp : q.pend = none) (hm : mainPhase c = some p)
    (ho : isDataPhase c = true → q.txnOpen = true) (hv : classify c q.status = some .success) :
    q.Leads { q with eng := .idle, txnOpen := true, result := 0x00 } := by
  refine leads_exec (congrArg Eng.command he) hp ?_
  rintro s rfl
  have hst := State.stage_wMain_done he hp
  rcases start_or_dataPhase hm with rfl | hd
  · refine ⟨_, exec_start_success hst (Option.some.inj hv), ?_⟩
    simp [State.point, State.maskedStatus, phasesOf_append, phasesOf]
  · have ho' : s.txnOpen = true := ho hd
    refine ⟨_, exec_dataPhase_done hd hst hv, ?_⟩
    simp [State.point, State.sendDone, State.maskedStatus, phasesOf_append, phasesOf, ho']

/-- The engine step after a refused main phase of a send launches the STOP phase of the NACK path (60_exceptions.md
R205). -/
theorem leads_nack {q : RunPoint} (he : q.eng = .wMain c) (hp : q.pend = none) (hd : isDataPhase c = true)
    (hv : classify c q.status = some .nack) :
    q.Leads { q with
      eng := .wStop c (some q.status), pend := some .stop, ctrl := 0x14, phases := q.phases ++ [Phase.stop] } := by
  refine leads_exec (congrArg Eng.command he) hp ?_
  rintro s rfl
  refine ⟨_, exec_dataPhase_nack hd he hp hv, ?_⟩
  simp [State.point, State.maskedStatus, phasesOf_append, phasesOf]

/-- The end of a send's NACK path reports the NACK status, however its stop ended (60_exceptions.md R205). -/
theorem leads_nackDone {q : RunPoint} {b saved : Byte} (hsend : SendCommand c b p)
    (he : q.eng = .wStop c (some saved)) (hp : q.pend = none) :
    q.Leads { q with
      eng := .idle, txnOpen := false, result := saved, ctrl := if q.status = 0xF8 then q.ctrl else 0x44 } := by
  refine leads_exec (congrArg Eng.command he) hp ?_
  rintro s rfl
  obtain ⟨hdone, hfail⟩ := hsend.exec_nackPathEnd he hp
  by_cases hst : s.maskedStatus = 0xF8
  · have hctrl : (if s.point.status = 0xF8 then s.point.ctrl else 0x44) = s.ctrl := if_pos hst
    refine ⟨_, hdone hst, ?_⟩
    rw [hctrl]
    simp [State.point, State.maskedStatus, phasesOf_append, phasesOf]
  · have hctrl : (if s.point.status = 0xF8 then s.point.ctrl else 0x44) = 0x44 := if_neg hst
    refine ⟨_, hfail hst, ?_⟩
    rw [hctrl]
    simp [State.point, State.maskedStatus, phasesOf_append, phasesOf]

theorem leads_stopLaunch {q : RunPoint} (he : q.eng = .issued .stop) (hp : q.pend = none) :
    q.Leads { q with
      eng := .wStop .stop none, pend := some .stop, ctrl := 0x14, phases := q.phases ++ [Phase.stop] } := by
  refine leads_exec (congrArg Eng.command he) hp ?_
  rintro s rfl
  refine ⟨_, exec_stop_launch (State.stage_issued he), ?_⟩
  simp [State.point, State.maskedStatus, phasesOf_append, phasesOf]

theorem leads_stopDone {q : RunPoint} (he : q.eng = .wStop .stop none) (hp : q.pend = none) (hst : q.status = 0xF8) :
    q.Leads { q with eng := .idle, txnOpen := false, result := 0x00 } := by
  refine leads_exec (congrArg Eng.command he) hp ?_
  rintro s rfl
  refine ⟨_, exec_stop_success (State.stage_wStop_done he hp) (verdictStop_success hst), ?_⟩
  simp [State.point, State.maskedStatus, phasesOf_append, phasesOf]

/-! ### The environment's step -/

/-- With no move listed, in a hold whose phase pends, the environment moves where its policy answers (20_memory.md
R60). -/
theorem step_eagerEnvironment (k : s.Eager) (hh : s.eng.inHold = true) (hp : s.pend = some p)
    (hpol : s.nextTick.policyOutcome p = some (o, env)) (ha : drawAllows s.params.statusDraw p o.code = true) :
    step s = .next (((s.nextTick.setEnv env).nextTick).completePhase p o) := by
  have hready : s.nextTick.engineReady = false := State.engineReady_pending hh hp
  have hp' : s.nextTick.pend = some p := hp
  have hturn : s.nextTick.eagerTurn = .environment := by
    rw [State.eagerTurn, hready, hp']
    simp only [hpol]
    rfl
  have hdone : s.nextTick.environmentStep = ((s.nextTick.setEnv env).nextTick).completePhase p o := by
    rw [State.environmentStep, hp']
    simp only [hpol]
    exact State.completeWith_allowed hp ha
  rw [step_eager k.turns, hturn, takeTurn_agent (by exact k.live), State.agentTurn, hdone]

theorem leads_completion {q : RunPoint} (hh : q.eng.inHold = true) (hp : q.pend = some p)
    (ha : q.env.Answers p q.txnOpen q.draw o env) :
    q.Leads { q with
      pend := none, env := env, ctrl := ctrlAfterCompletion q.ctrl, status := statusOfCode o.code } := by
  refine .of_step ?_
  rintro s k rfl
  have hstep := step_eagerEnvironment k hh hp (ha.policy _ rfl rfl) ha.allowed
  refine ⟨_, hstep, ((k.nextTick.setEnv env).nextTick).completePhase p o, ?_⟩
  simp [State.point, State.completePhase_maskedStatus, phasesOf_append, phasesOf]

/-! ### The host's steps (43_composite.md R160) -/

/-- With the engine idle and nothing pending the host's program moves. -/
theorem step_eagerIdle (k : s.Eager) (he : s.eng = .idle) (hp : s.pend = none) :
    step s = .next s.nextTick.programStep := by
  refine step_eagerProgram k.live k.turns (by rw [State.engineReady, he]) fun p h => ?_
  rw [hp] at h
  cases h

/-- The block is idle and enabled and the host is at the head of its loop. -/
structure RunPoint.AtFetch (q : RunPoint) : Prop where
  idle : q.eng = .idle
  noPhase : q.pend = none
  fetch : q.stage = .fetch
  enabled : ctrlEn q.ctrl = true

/-- The block is idle and the host polls: the command of its line has finished. -/
structure RunPoint.AtPoll (q : RunPoint) : Prop where
  idle : q.eng = .idle
  noPhase : q.pend = none
  poll : q.stage = .poll

/-- The first of the lines still to do is the line that `hpc` names. -/
theorem State.line_of_todo {l : Line} {rest : List Line} (h : s.point.todo = l :: rest) :
    s.host.lines[s.host.hpc]? = some l := by
  have hd : s.host.lines.drop s.host.hpc = l :: rest := h
  rw [← List.head?_drop, hd]
  rfl

/-- An idle, enabled block accepts a command that does not reconfigure it, inside a transaction where the command needs
one (60_exceptions.md R210). -/
theorem issueCheck_accepted {op : Byte} (hi : s.eng = .idle) (hd : decode (commandWord op s.arg) = .command c)
    (he : s.enabled = true) (hr : isReconfiguration c = false) (ho : isDataPhase c = true → s.txnOpen = true) :
    issueCheck s op = .accept c := by
  have h4 : ¬(isReconfiguration c = true ∧ s.txnOpen = true) := fun h => Bool.false_ne_true (hr.symm.trans h.1)
  have h5 : ¬(isDataPhase c = true ∧ s.txnOpen = false) := fun h =>
    Bool.false_ne_true (h.2.symm.trans (ho h.1))
  rw [issueCheck_admitted hi hd (.inr he), if_neg h4, if_neg h5]

/-- A command of a program that the issue checks accept: ARG, then CMD (43_composite.md R160). -/
theorem leads_issue {q : RunPoint} {rest : List Line} (h : q.AtFetch) (hl : q.todo = .command c :: rest)
    (hr : isReconfiguration c = false) (ho : isDataPhase c = true → q.txnOpen = true) :
    q.Leads { q with eng := .issued c, stage := .poll } := by
  rintro s k rfl
  obtain ⟨he, hp, hs, hen⟩ := h
  let u := (s.nextTick.setArg c.argByte).hostGoto (.deliver c.op)
  let t := (u.nextTick.accept c.op c).hostGoto .poll
  have ku : u.Eager := (k.nextTick.setArg _).hostGoto _
  have hu : step s = .next u := by
    rw [step_eagerIdle k he hp, State.programStep_fetchCommand (s := s.nextTick) hs (State.line_of_todo hl)]
  have hc : issueCheck u.nextTick c.op = .accept c :=
    issueCheck_accepted (s := u.nextTick) he (decode_encode c) hen hr ho
  have ht : step u = .next t := by
    rw [step_eagerIdle ku he hp, State.programStep_accepted (s := u.nextTick) rfl hc]
  refine ⟨t, .tail (.single hu) ht, (ku.nextTick.accept _ _).hostGoto _, ?_⟩
  simp [State.point, State.maskedStatus, phasesOf_append, phasesOf, t, u, State.hostGoto]

/-- The host polls, finds BUSY 0 and is to read RESULT. -/
theorem leads_result {q : RunPoint} (h : q.AtPoll) : q.Leads { q with stage := .result } := by
  refine .of_step ?_
  rintro s k rfl
  refine ⟨_, step_eagerIdle k h.idle h.noPhase, ?_⟩
  rw [State.programStep_idle (s := s.nextTick) h.poll h.idle]
  exact ⟨k.nextTick.hostGoto _, rfl⟩

/-- A result of 0x00 leads to the next line. -/
theorem leads_nextLine {q : RunPoint} (h : q.AtPoll) (hr : q.result = 0x00) :
    q.Leads { q with stage := .fetch, todo := q.todo.tail, hpc := q.hpc + 1 } := by
  suffices next : ∀ {q : RunPoint}, q.eng = .idle → q.pend = none → q.stage = .result → q.result = 0x00 →
      q.Leads { q with stage := .fetch, todo := q.todo.tail, hpc := q.hpc + 1 } from
    (leads_result h).trans (next (q := { q with stage := .result }) h.idle h.noPhase rfl hr)
  refine fun he hp hs hr => .of_step ?_
  rintro s k rfl
  refine ⟨_, step_eagerIdle k he hp, ?_⟩
  rw [State.programStep_succeeded (s := s.nextTick) hs hr]
  refine ⟨k.nextTick.hostAdvance, ?_⟩
  simp [State.point, State.maskedStatus, State.hostAdvance]

/-- A non-zero result is returned at once, the short-circuit (43_composite.md R160). -/
theorem leads_failed {q : RunPoint} (h : q.AtPoll) (hr : q.result ≠ 0x00) :
    q.Leads { q with stage := .returned q.result } := by
  suffices back : ∀ {q : RunPoint}, q.eng = .idle → q.pend = none → q.stage = .result → q.result ≠ 0x00 →
      q.Leads { q with stage := .returned q.result } from
    (leads_result h).trans (back (q := { q with stage := .result }) h.idle h.noPhase rfl hr)
  refine fun he hp hs hr => .of_step ?_
  rintro s k rfl
  refine ⟨_, step_eagerIdle k he hp, ?_⟩
  rw [State.programStep_failed (s := s.nextTick) hs hr]
  exact ⟨k.nextTick.hostGoto _, rfl⟩

/-- After the last line the run returns 0x00. -/
theorem leads_end {q : RunPoint} (h : q.AtFetch) (hl : q.todo = []) : q.Leads { q with stage := .returned 0x00 } := by
  refine .of_step ?_
  rintro s k rfl
  have hnone : s.host.lines[s.host.hpc]? = none := List.getElem?_eq_none (List.drop_eq_nil_iff.mp hl)
  refine ⟨_, step_eagerIdle k h.idle h.noPhase, ?_⟩
  rw [State.programStep_fetchEnd (s := s.nextTick) h.fetch hnone]
  refine ⟨k.nextTick.hostGoto _, ?_⟩
  rw [show s.nextTick.host.last = 0x00 from k.last]
  rfl

end Sys2Proof.Machine
end

section
/-! SUPPORT. What each line of a program leads to, and the lines of WRITE and WRITE_REG from the start of a program on
(43_composite.md R160 to R162). -/

namespace Sys2Proof.Machine

variable {s t : State} {c : Instr} {p : Phase} {o : PhaseOutcome} {env : Env}

/-! ### A line of a program -/

/-- Where a run stands after a line whose phase `p` was acknowledged with `o`. -/
def RunPoint.afterPhase (q : RunPoint) (c : Instr) (p : Phase) (o : PhaseOutcome) (env : Env) : RunPoint :=
  { q with
    eng := .idle
    pend := none
    stage := .fetch
    todo := q.todo.tail
    hpc := q.hpc + 1
    txnOpen := true
    env := env
    ctrl := ctrlAfterCompletion (pendingCtrl (.wMain c))
    status := statusOfCode o.code
    result := 0x00
    phases := q.phases ++ [p] }

/-- CTRL after a send's phase has completed (20_memory.md R60). -/
theorem SendCommand.ctrl_done {b : Byte} (h : SendCommand c b p) :
    ctrlAfterCompletion (pendingCtrl (.wMain c)) = 0x84 := by
  rw [h.pendingCtrl_eq]
  rfl

/-- A command with a main phase keeps the block enabled in its hold. -/
theorem pendingCtrl_enabled (hm : mainPhase c = some p) : ctrlEn (pendingCtrl (.wMain c)) = true := by
  cases c with
  | beginCmd | endCmd | setLowSpeed | setHighSpeed | stop => cases hm
  | start => rfl
  | sendAddress a d => rw [(SendCommand.address a d).pendingCtrl_eq]; rfl
  | sendByte b => rw [(SendCommand.byte b).pendingCtrl_eq]; rfl
  | receiveByte k =>
    rw [pendingCtrl]
    split <;> rfl

theorem RunPoint.atFetch_afterPhase (q : RunPoint) (hm : mainPhase c = some p) (o : PhaseOutcome) (env : Env) :
    (q.afterPhase c p o env).AtFetch :=
  ⟨rfl, rfl, rfl, (ctrlEn_afterCompletion _).trans (pendingCtrl_enabled hm)⟩

theorem not_reconfiguration (hm : mainPhase c = some p) : isReconfiguration c = false := by
  cases c with
  | beginCmd | setLowSpeed | setHighSpeed => cases hm
  | _ => rfl

/-- A line's command up to the completion of its main phase. -/
theorem leads_mainPhase {q : RunPoint} {rest : List Line} (h : q.AtFetch) (hl : q.todo = .command c :: rest)
    (hm : mainPhase c = some p) (ho : isDataPhase c = true → q.txnOpen = true)
    (ha : q.env.Answers p q.txnOpen q.draw o env) :
    q.Leads { q with
      eng := .wMain c, pend := none, stage := .poll, env := env, ctrl := ctrlAfterCompletion (pendingCtrl (.wMain c))
      status := statusOfCode o.code, phases := q.phases ++ [p] } :=
  ((leads_issue h hl (not_reconfiguration hm) ho).trans (leads_launch rfl h.noPhase hm)).trans
    (leads_completion rfl rfl ha)

/-- A line whose phase is acknowledged leads to the next line (60_exceptions.md R200, R203). -/
theorem leads_phaseLine {q : RunPoint} {rest : List Line} (h : q.AtFetch) (hl : q.todo = .command c :: rest)
    (hm : mainPhase c = some p) (ho : isDataPhase c = true → q.txnOpen = true)
    (ha : q.env.Answers p q.txnOpen q.draw o env) (hv : classify c (statusOfCode o.code) = some .success) :
    q.Leads (q.afterPhase c p o env) :=
  ((leads_mainPhase h hl hm ho ha).trans (leads_success rfl rfl hm ho hv)).trans (leads_nextLine ⟨rfl, rfl, rfl⟩ rfl)

/-- A STOP line whose stop is done closes the transaction and leads to the next line (41_bus_conditions.md R122). -/
theorem leads_stopLine {q : RunPoint} {rest : List Line} (h : q.AtFetch) (hl : q.todo = .command .stop :: rest)
    (ha : q.env.Answers .stop q.txnOpen q.draw o env) (hst : statusOfCode o.code = 0xF8) :
    q.Leads { q with
      eng := .idle, pend := none, stage := .fetch, todo := q.todo.tail, hpc := q.hpc + 1, txnOpen := false, env := env
      ctrl := 0x84, status := statusOfCode o.code, result := 0x00, phases := q.phases ++ [Phase.stop] } := by
  have hctrl : ctrlAfterCompletion 0x14 = 0x84 := rfl
  rw [← hctrl]
  exact (((leads_issue h hl rfl fun hd => by cases hd).trans (leads_stopLaunch rfl h.noPhase)).trans
    (leads_completion rfl rfl ha)).trans ((leads_stopDone rfl rfl hst).trans (leads_nextLine ⟨rfl, rfl, rfl⟩ rfl))

/-- A line whose byte is refused ends the run: the only later phase is the STOP of the NACK path, and the NACK status is
returned, however that STOP ends (60_exceptions.md R205). -/
theorem leads_nackLine {q : RunPoint} {rest : List Line} {b : Byte} {o' : PhaseOutcome} {env' : Env} (h : q.AtFetch)
    (hl : q.todo = .command c :: rest) (hsend : SendCommand c b p) (ho : q.txnOpen = true)
    (ha : q.env.Answers p q.txnOpen q.draw o env) (hv : classify c (statusOfCode o.code) = some .nack)
    (hstop : env.Answers .stop q.txnOpen q.draw o' env') (hne : statusOfCode o.code ≠ 0x00) :
    q.Leads { q with
      eng := .idle, pend := none, stage := .returned (statusOfCode o.code), txnOpen := false, env := env'
      ctrl := if statusOfCode o'.code = 0xF8 then 0x84 else 0x44, status := statusOfCode o'.code
      result := statusOfCode o.code, phases := q.phases ++ [p] ++ [Phase.stop] } := by
  have hctrl : ctrlAfterCompletion 0x14 = 0x84 := rfl
  rw [← hctrl]
  have hd : isDataPhase c = true := by cases hsend <;> rfl
  have hphase := leads_mainPhase h hl hsend.mainPhase_eq (fun _ => ho) ha
  have hnack := hphase.trans (leads_nack rfl rfl hd hv)
  have hdone := (hnack.trans (leads_completion rfl rfl hstop)).trans (leads_nackDone hsend rfl rfl)
  exact hdone.trans (leads_failed ⟨rfl, rfl, rfl⟩ hne)

/-! ### Programs (43_composite.md R161, R162) -/

/-- At the head of the loop, `n` lines done and `rest` still to do, with every byte so far acknowledged: `status` is
that of the last one. -/
def RunPoint.sending (draw : StatusDraw) (env : Env) (rest : List Line) (n : Nat) (status : Byte)
    (phases : List Phase) : RunPoint where
  eng := .idle
  pend := none
  stage := .fetch
  todo := rest
  hpc := n
  txnOpen := true
  env := env
  draw := draw
  ctrl := 0x84
  status := status
  result := 0x00
  phases := phases

section
variable {draw : StatusDraw} {rest : List Line} {i : Nat} {st : Byte} {phases : List Phase}

theorem RunPoint.atFetch_sending : (RunPoint.sending draw env rest i st phases).AtFetch :=
  ⟨rfl, rfl, rfl, (rfl : ctrlEn 0x84 = true)⟩

/-- After a send's line the run goes on sending. -/
theorem RunPoint.afterPhase_send {q : RunPoint} {b : Byte} (h : SendCommand c b p) (hl : q.todo = .command c :: rest) :
    q.afterPhase c p o env =
      .sending q.draw env rest (q.hpc + 1) (statusOfCode o.code) (q.phases ++ [p]) := by
  rw [RunPoint.afterPhase, h.ctrl_done, hl]
  rfl

theorem leads_sendByte {env' : Env} {b : Byte} (ha : env.Answers (.tx b) true draw (outcomeOf 0x28 0x00) env') :
    (RunPoint.sending draw env (.command (.sendByte b) :: rest) i st phases).Leads
      (.sending draw env' rest (i + 1) 0x28 (phases ++ [Phase.tx b])) := by
  have hst := statusOfCode_outcomeOf (st := 0x28) rfl 0x00
  have hline := leads_phaseLine (c := .sendByte b)
    (q := .sending draw env (.command (.sendByte b) :: rest) i st phases)
    RunPoint.atFetch_sending rfl rfl (fun _ => rfl) ha (by rw [hst]; rfl)
  rwa [RunPoint.afterPhase_send (.byte b) rfl, hst] at hline

/-- Bytes that are all acknowledged are sent in order, a line each. `env n` is the environment with `n` acknowledgements
still to come. -/
theorem leads_sendBytes {env : Nat → Env} {n : Nat} {bytes : List Byte}
    (ha : ∀ k b, (env (k + 1)).Answers (.tx b) true draw (outcomeOf 0x28 0x00) (env k)) :
    ∃ st', (RunPoint.sending draw (env (n + bytes.length))
        (bytes.map (fun b => Line.command (.sendByte b)) ++ rest) i st phases).Leads
      (.sending draw (env n) rest (i + bytes.length) st' (phases ++ bytes.map Phase.tx)) := by
  induction bytes generalizing i st phases with
  | nil =>
    rw [List.map_nil, List.map_nil, List.append_nil]
    exact ⟨st, .refl _⟩
  | cons b bytes ih =>
    obtain ⟨st', hrest⟩ := ih (i := i + 1) (st := 0x28) (phases := phases ++ [Phase.tx b])
    refine ⟨st', ?_⟩
    have hall := (leads_sendByte (st := st) (ha _ b)).trans hrest
    rw [List.append_assoc, Nat.add_right_comm i] at hall
    exact hall

end

/-- The direction bit of a write's SLA byte is 0 (30_encoding.md R83). -/
theorem slaByte_write (a : BitVec 7) : (slaByte a 0).getLsbD 0 = false := by
  rw [slaByte, BitVec.getLsbD_append]
  rfl

/-- START and SEND_ADDRESS a W, both acknowledged. -/
theorem leads_startAddress {q : RunPoint} {a : BitVec 7} {rest : List Line} {o₁ o₂ : PhaseOutcome} {env₁ env₂ : Env}
    (h : q.AtFetch) (hl : q.todo = .command .start :: .command (.sendAddress a 0) :: rest)
    (h₁ : q.env.Answers .start q.txnOpen q.draw o₁ env₁) (hv₁ : verdictStart (statusOfCode o₁.code) = .success)
    (h₂ : env₁.Answers (.addr (slaByte a 0)) true q.draw o₂ env₂)
    (hv₂ : verdictSendAddress (statusOfCode o₂.code) = .success) :
    q.Leads (.sending q.draw env₂ rest (q.hpc + 2) (statusOfCode o₂.code)
      (q.phases ++ [Phase.start, .addr (slaByte a 0)])) := by
  have hl' : (q.afterPhase .start .start o₁ env₁).todo = .command (.sendAddress a 0) :: rest := congrArg List.tail hl
  have hstart := leads_phaseLine h hl rfl (fun hd => by cases hd) h₁ (congrArg some hv₁)
  have haddr := leads_phaseLine (q.atFetch_afterPhase rfl o₁ env₁) hl' rfl (fun _ => rfl) h₂ (congrArg some hv₂)
  have hboth := hstart.trans haddr
  rw [RunPoint.afterPhase_send (.address a 0) hl', RunPoint.afterPhase, List.append_assoc] at hboth
  exact hboth

/-! ### Runs from the start of a program -/

/-- An idle, enabled, live block with no fault and no move listed, whose host is at the start of a program. -/
structure State.AtStart (s : State) (lines : List Line) : Prop where
  idle : s.eng = .idle
  noPhase : s.pend = none
  enabled : s.enabled = true
  live : s.quiescent = false
  noFault : s.fault = none
  noTurns : s.turns = []
  host : s.host = { lines := lines, hpc := 0, last := 0x00, stage := .fetch }

section
variable {lines rest : List Line} {a : BitVec 7}

theorem State.AtStart.eager (h : s.AtStart lines) : s.Eager := ⟨h.noTurns, h.live, h.noFault, by rw [h.host]⟩

theorem State.AtStart.atFetch (h : s.AtStart lines) : s.point.AtFetch :=
  ⟨h.idle, h.noPhase, congrArg HostRun.stage h.host, h.enabled⟩

theorem State.AtStart.todo (h : s.AtStart lines) : s.point.todo = lines := by
  rw [State.point, h.host]
  rfl

theorem State.AtStart.hpc (h : s.AtStart lines) : s.point.hpc = 0 := congrArg HostRun.hpc h.host

/-- What the steps from the start lead to is what a run of some length ends in. -/
theorem State.AtStart.run {r : RunPoint} {v : Byte} (h : s.AtStart lines) (hr : s.point.Leads r)
    (hv : r.stage = .returned v) : ∃ n t, Sys2Proof.core.run n s = .next t ∧ t.finalWith v ∧ t.point = r := by
  obtain ⟨t, hst, ht, e⟩ := hr s h.eager rfl
  obtain ⟨n, hrun⟩ := exists_run_of_steps hst
  exact ⟨n, t, hrun, ⟨(congrArg RunPoint.stage e).trans hv, ht.noFault⟩, e⟩

/-- ACK_ENV's status for the address of a write (20_memory.md R64). -/
theorem ackStatus_writeAddress (a : BitVec 7) (txnOpen : Bool) : ackStatus (.addr (slaByte a 0)) txnOpen = 0x18 :=
  if_pos (slaByte_write a)

/-- Under ACK_ENV the START and the address of a write are acknowledged (20_memory.md R64). -/
theorem State.AtStart.leads_ack {rx : List Byte}
    (h : s.AtStart (.command .start :: .command (.sendAddress a 0) :: rest)) (he : s.env = .ack rx) :
    s.point.Leads (.sending s.params.statusDraw (.ack rx) rest 2 0x18
      (phasesOf s.trace ++ [Phase.start, .addr (slaByte a 0)])) := by
  have h₁ := Env.answers_ack (p := .start) (txnOpen := s.txnOpen) s.params.statusDraw rx rfl
  have h₂ := Env.answers_ack (p := .addr (slaByte a 0)) (txnOpen := true) s.params.statusDraw rx rfl
  have hst₁ := statusOfCode_outcomeOf (ackStatus_low .start s.txnOpen) 0x00
  have hst₂ := statusOfCode_outcomeOf (ackStatus_low (.addr (slaByte a 0)) true) 0x00
  rw [ackStatus_writeAddress] at h₂ hst₂
  have hv₁ : verdictStart (ackStatus .start s.txnOpen) = .success := by cases s.txnOpen <;> rfl
  have hlead := leads_startAddress h.atFetch h.todo (he ▸ h₁) (hst₁.symm ▸ hv₁) h₂ (by rw [hst₂]; rfl)
  rw [hst₂, h.hpc] at hlead
  exact hlead

/-- A script whose first outcome acknowledges the START (60_exceptions.md R200). -/
theorem script_answers_start {outcomes : List PhaseOutcome}
    (he : s.env = .script (outcomeOf 0x08 0x00 :: outcomes)) :
    s.point.env.Answers .start s.point.txnOpen s.point.draw (outcomeOf 0x08 0x00) (.script outcomes) := by
  have hallowed := ackStatus_allowed s.params.statusDraw .start false 0x00
  have he' : s.point.env = .script (outcomeOf 0x08 0x00 :: outcomes) := he
  rw [he']
  exact Env.answers_script outcomes hallowed

theorem verdictStart_script : verdictStart (statusOfCode (outcomeOf 0x08 0x00).code) = .success := by decide

/-- A script that acknowledges the START and the address of a write. -/
theorem State.AtStart.leads_script {outcomes : List PhaseOutcome}
    (h : s.AtStart (.command .start :: .command (.sendAddress a 0) :: rest))
    (he : s.env = .script (outcomeOf 0x08 0x00 :: outcomeOf 0x18 0x00 :: outcomes)) :
    s.point.Leads (.sending s.params.statusDraw (.script outcomes) rest 2 0x18
      (phasesOf s.trace ++ [Phase.start, .addr (slaByte a 0)])) := by
  have hst := statusOfCode_outcomeOf (st := 0x18) rfl 0x00
  have hallowed := ackStatus_allowed s.params.statusDraw (.addr (slaByte a 0)) true 0x00
  rw [ackStatus_writeAddress] at hallowed
  have hlead := leads_startAddress h.atFetch h.todo (script_answers_start he) verdictStart_script
    (Env.answers_script outcomes hallowed) (by rw [hst]; rfl)
  rw [hst, h.hpc] at hlead
  exact hlead

end

/-- The lines of WRITE_REG: START, the address, the selector and the payload, STOP (43_composite.md R162). -/
theorem writeRegLines_eq (a : BitVec 7) (reg : Byte) (payload : List Byte) : writeRegLines a reg payload =
    .command .start :: .command (.sendAddress a 0) ::
      ((reg :: payload).map (fun b => Line.command (.sendByte b)) ++ [Line.command .stop]) := rfl

/-- A script that acknowledges `k` data bytes before `outcomes`. -/
def acksThen (outcomes : List PhaseOutcome) (k : Nat) : Env :=
  .script (List.replicate k (outcomeOf 0x28 0x00) ++ outcomes)

theorem acksThen_answers (outcomes : List PhaseOutcome) (draw : StatusDraw) (k : Nat) (b : Byte) :
    (acksThen outcomes (k + 1)).Answers (.tx b) true draw (outcomeOf 0x28 0x00) (acksThen outcomes k) :=
  Env.answers_script _ (ackStatus_allowed draw (.tx b) true 0x00)

/-- The bytes up to the one at place `n`, that one, and those after it. -/
theorem exists_split_at {bytes : List Byte} {n : Nat} (h : n < bytes.length) :
    ∃ b post, bytes = bytes.take n ++ b :: post ∧ bytes.take (n + 1) = bytes.take n ++ [b] :=
  ⟨bytes[n], bytes.drop (n + 1), by rw [← List.drop_eq_getElem_cons h, List.take_append_drop],
    (List.take_append_getElem h).symm⟩

end Sys2Proof.Machine
end

section
/-! The statements about the composite writes (43_composite.md R161, R162). -/

namespace Sys2Proof.Machine

/-- Settles O57: each of the three lines is acknowledged and leads to the next, and the end returns 0x00. -/
theorem writeLeavesTheTransactionOpen : Obligations.WriteLeavesTheTransactionOpen := by
  intro s a d rx hi hp he hq hf ht henv hh
  have start : s.AtStart (writeLines a d) := ⟨hi, hp, he, hq, hf, ht, hh⟩
  have hbyte := (start.leads_ack henv).trans (leads_sendByte (Env.answers_ack (p := .tx d) _ rx rfl))
  have hend := hbyte.trans (leads_end RunPoint.atFetch_sending rfl)
  obtain ⟨k, t, hrun, hfinal, e⟩ := start.run hend rfl
  refine ⟨k, t, hrun, hfinal, congrArg RunPoint.txnOpen e, congrArg RunPoint.ctrl e, congrArg RunPoint.hpc e, ?_⟩
  exact (congrArg RunPoint.phases e).trans (List.append_assoc ..)

/-- Settles O58: after the address the bytes are sent by induction, and the STOP line closes the transaction. -/
theorem writeRegSendsEveryByteAndStops : Obligations.WriteRegSendsEveryByteAndStops := by
  intro s a reg payload rx hi hp he hq hf ht henv hh
  have start : s.AtStart (writeRegLines a reg payload) := ⟨hi, hp, he, hq, hf, ht, hh⟩
  obtain ⟨st, hbytes⟩ := leads_sendBytes (env := fun _ => .ack rx) (n := 0) (bytes := reg :: payload)
    (rest := [Line.command .stop]) (i := 2) (st := 0x18)
    (phases := phasesOf s.trace ++ [Phase.start, .addr (slaByte a 0)])
    fun _ b => Env.answers_ack (p := .tx b) s.params.statusDraw rx rfl
  have hsent := (start.leads_ack henv).trans hbytes
  have hstop := hsent.trans (leads_stopLine RunPoint.atFetch_sending rfl (Env.answers_ack _ rx rfl)
    (statusOfCode_outcomeOf (ackStatus_low .stop true) 0x00))
  have hend := hstop.trans (leads_end ⟨rfl, rfl, rfl, (rfl : ctrlEn 0x84 = true)⟩ rfl)
  obtain ⟨k, t, hrun, hfinal, e⟩ := start.run hend rfl
  refine ⟨k, t, hrun, hfinal, congrArg RunPoint.txnOpen e, congrArg RunPoint.ctrl e, ?_, ?_, ?_⟩
  · exact (congrArg RunPoint.status e).trans (statusOfCode_outcomeOf (ackStatus_low .stop true) 0x00)
  · have hhpc : t.host.hpc = 2 + (payload.length + 1) + 1 := congrArg RunPoint.hpc e
    omega
  · have hphases : phasesOf t.trace = phasesOf s.trace ++ [Phase.start, .addr (slaByte a 0)] ++
        (reg :: payload).map Phase.tx ++ [Phase.stop] := congrArg RunPoint.phases e
    simp [hphases]

/-- Settles O59: the acknowledged bytes are sent as in O58, and the line of the one that is refused, or of the address,
returns its NACK status after the STOP of the NACK path. -/
theorem writeRegStopsAtTheFirstNack : Obligations.WriteRegStopsAtTheFirstNack := by
  constructor
  · intro s a reg payload n so more hi hp he hq hf ht hn hso henv hh
    have start : s.AtStart (writeRegLines a reg payload) := ⟨hi, hp, he, hq, hf, ht, hh⟩
    obtain ⟨b, post, hsplit, htake⟩ := exists_split_at (bytes := reg :: payload) (n := n) (Nat.lt_succ_of_le hn)
    have hlen : ((reg :: payload).take n).length = n := List.length_take_of_le (Nat.le_succ_of_le hn)
    rw [writeRegLines_eq, hsplit, List.map_append, List.append_assoc] at start
    rw [List.append_assoc, List.append_assoc] at henv
    have hst : statusOfCode (outcomeOf 0x30 0x00).code = 0x30 := statusOfCode_outcomeOf rfl 0x00
    obtain ⟨st, hbytes⟩ := leads_sendBytes (n := 0) (bytes := (reg :: payload).take n)
      (rest := .command (.sendByte b) :: (post.map (fun b => Line.command (.sendByte b)) ++ [Line.command .stop]))
      (i := 2) (st := 0x18) (phases := phasesOf s.trace ++ [Phase.start, .addr (slaByte a 0)])
      (acksThen_answers (outcomeOf 0x30 0x00 :: so :: more) s.params.statusDraw)
    rw [Nat.zero_add, hlen] at hbytes
    have hsent := (start.leads_script henv).trans hbytes
    have hnack := hsent.trans (leads_nackLine RunPoint.atFetch_sending rfl (.byte b) rfl
      (Env.answers_script (so :: more) (byteNack_allowed _ b)) (by rw [hst]; rfl) (Env.answers_script more hso)
      (by rw [hst]; decide))
    obtain ⟨k, t, hrun, hfinal, e⟩ := start.run hnack (congrArg HostStage.returned hst)
    refine ⟨k, t, hrun, hfinal, congrArg RunPoint.txnOpen e, congrArg RunPoint.env e, congrArg RunPoint.status e,
      congrArg RunPoint.ctrl e, ?_⟩
    have hphases : phasesOf t.trace = phasesOf s.trace ++ [Phase.start, .addr (slaByte a 0)] ++
        ((reg :: payload).take n).map Phase.tx ++ [Phase.tx b] ++ [Phase.stop] := congrArg RunPoint.phases e
    simp [hphases, htake]
  · intro s a reg payload nack so more hi hp he hq hf ht hnack hallowed hso henv hh
    have start : s.AtStart (writeRegLines a reg payload) := ⟨hi, hp, he, hq, hf, ht, hh⟩
    have hst : statusOfCode (outcomeOf nack 0x00).code = nack :=
      statusOfCode_outcomeOf (by rcases hnack with rfl | rfl <;> rfl) 0x00
    have hne : nack ≠ 0x00 := by rcases hnack with rfl | rfl <;> decide
    have hstart := leads_phaseLine start.atFetch start.todo rfl (fun hd => by cases hd)
      (script_answers_start henv) (congrArg some verdictStart_script)
    have hnackLine := hstart.trans (leads_nackLine (o := outcomeOf nack 0x00) (s.point.atFetch_afterPhase rfl _ _)
      (congrArg List.tail start.todo) (.address a 0) rfl (Env.answers_script _ hallowed)
      (congrArg some (verdictSendAddress_refused (hst.symm ▸ hnack))) (Env.answers_script more hso) (hst.symm ▸ hne))
    obtain ⟨k, t, hrun, hfinal, e⟩ := start.run hnackLine (congrArg HostStage.returned hst)
    refine ⟨k, t, hrun, hfinal, congrArg RunPoint.txnOpen e, congrArg RunPoint.env e, congrArg RunPoint.status e,
      congrArg RunPoint.ctrl e, ?_⟩
    have hphases : phasesOf t.trace =
        phasesOf s.trace ++ [Phase.start] ++ [Phase.addr (slaByte a 0)] ++ [Phase.stop] := congrArg RunPoint.phases e
    simp [hphases]

end Sys2Proof.Machine
end
